-- ==== Sys2Proof/Word.lean ====
section
/-! DEFINITION. The word types of SND: the widths that the spec gives its registers, counters and ports. -/

namespace Sys2Proof

/-- One 8-bit register or table entry (rules R20, R64, R67). -/
abbrev Byte := BitVec 8

/-- A cycle stamp: a count of master-clock cycles since RESET (rules R17, R44, R80; item U9). How many bits a stamp
may have is the parameter `CYCLE_BITS` (assumption 4). -/
abbrev Cycle := Nat

/-- An offset in the register window (rules R17, R61). -/
abbrev Offset := BitVec 11

/-- One 16-bit lane of a PCM frame (rule R49). -/
abbrev Lane := BitVec 16

/-- A channel index 0..5 (rule R17). -/
abbrev Chan := Fin 6

/-- The index of a wave channel 0..4, or of a wave table 0..4 (rules R17, R30). -/
abbrev WaveChan := Fin 5

/-- An index 0..31 of a table entry (rules R30, R31). -/
abbrev Entry := BitVec 5

end Sys2Proof
end

