-- ==== Sys2Proof/Config.lean ====
section
/-! DEFINITION. The parameters of SND: the constants the source fixes or that shape the encoding, and the
record `Params` of those the spec leaves open (rules R5, R6, R7; decisions D2 to D30). -/

namespace Sys2Proof

/-- `CH_SWEEP`, the sweep/modulation channel (rule R5). -/
abbrev chSweep : Chan := 4

/-- `CH_NOISE`, the noise channel (rule R5). -/
abbrev chNoise : Chan := 5

/-- `TICK_SAMPLES`, samples per effects tick (rules R5, R170). -/
abbrev tickSamples : Nat := 48

/-- The value `shutoffDivider` is reloaded with: `SHUTOFF_DIV` - 1 (rules R5, R170). -/
abbrev shutoffReload : Nat := 3

/-- The value `envelopeDivider` is reloaded with: `ENVELOPE_DIV` - 1 (rules R5, R170). -/
abbrev envelopeReload : Nat := 3

/-- `FREQ_LIMIT`, 2 to the power `FREQ_BITS` (rules R5, R176). -/
abbrev freqLimit : Nat := 2048

/-- `SCALE_SHIFT` (rules R5, R201). -/
abbrev scaleShift : Nat := 4

/-- `SCALE_MUL` (rules R5, R201). -/
abbrev scaleMul : Nat := 95

/-- `GAIN_SHIFT` (rules R5, R155). -/
abbrev gainShift : Nat := 3

/-- The base address the spec writes window addresses with (rules R61, R93). -/
abbrev windowBase : BitVec 32 := 0x01000000

/-- The parameters the model takes as arguments (rules R6, R7). Assumption 3 says why they stand in State. -/
structure Params where
  /-- `N_BUF`, buffers in the ring (rule R6). -/
  nBuf : Nat
  /-- `FRAMES`, stereo frames per buffer (rule R6). -/
  frames : Nat
  /-- `SAMPLE_RATE`, output samples per second (rule R6). -/
  sampleRate : Nat
  /-- `MASTER_CLOCK`, cycles per second (rule R7, D2). -/
  masterClock : Nat
  /-- `CYCLE_BITS`, the width of a cycle stamp (rules R7, R44, R80, D30; assumption 4). -/
  cycleBits : Nat
  /-- `WINDOW_MASK`, the bits of `address[10:0]` that the decoder looks at (rules R7, R17, R61, D3; assumption 20). -/
  windowMask : Offset
  /-- `WAVE_REGION_END`, the end of the wave-table RAM class (rules R7, R104, D8; assumption 20). -/
  waveRegionEnd : Nat
  /-- `WAVE_LOCK_SPLIT`, the end of the lower half of that class (rules R7, R69, R105, D8). -/
  waveLockSplit : Nat
  /-- `CATCHUP_THRESHOLD` (rules R7, R102, D9). -/
  catchupThreshold : Nat
  /-- `PERIOD_MULT_WAVE` (rules R7, R146, D10). -/
  periodMultWave : Nat
  /-- `PERIOD_MULT_NOISE` (rules R7, R146, D10). -/
  periodMultNoise : Nat
  /-- `NOISE_TAP[0..7]` (rules R7, R151, D12). -/
  noiseTap : Vector Nat 8
  /-- `NOISE_FIXED_BIT` (rules R7, R151, D12). -/
  noiseFixedBit : Nat
  /-- `NOISE_MAX` (rules R7, R153, D13). -/
  noiseMax : Nat
  /-- `EFFECT_DIV_RESET` (rules R7, R45, D16). -/
  effectDivReset : Nat
  /-- `SHUTOFF_DIV_RESET` (rules R7, R46, D16). -/
  shutoffDivReset : Nat
  /-- `ENVELOPE_DIV_RESET` (rules R7, R47, D16). -/
  envelopeDivReset : Nat
  /-- `SWEEP_CLK[0]` (rules R7, R28, D17). -/
  sweepClk0 : Nat
  /-- `SWEEP_CLK[1]` (rules R7, R28, D17). -/
  sweepClk1 : Nat
  /-- `DC_BLEND_DIV` (rules R7, R203, D25). -/
  dcBlendDiv : Nat
  /-- `DC_RESET` (rules R7, R48, D25; item U4). -/
  dcReset : Int
deriving DecidableEq, Repr

/-- The default values of rules R6 and R7. -/
def Params.default : Params where
  nBuf := 9
  frames := 480
  sampleRate := 48000
  masterClock := 20000000
  cycleBits := 64
  windowMask := 0x7FF
  waveRegionEnd := 0x400
  waveLockSplit := 0x200
  catchupThreshold := 0x800
  periodMultWave := 4
  periodMultNoise := 40
  noiseTap := #v[14, 10, 13, 4, 8, 6, 9, 11]
  noiseFixedBit := 7
  noiseMax := 63
  effectDivReset := 48
  shutoffDivReset := 3
  envelopeDivReset := 3
  sweepClk0 := 1
  sweepClk1 := 8
  dcBlendDiv := 256
  dcReset := 0

/-- `CPS`, cycles per output sample: floor(`MASTER_CLOCK` / `SAMPLE_RATE`) (rules R7, R147; conflict C8). -/
abbrev Params.cps (p : Params) : Nat := p.masterClock / p.sampleRate

/-- The constraints on the parameters: the first four are stated (rules R6, R7; item U12), the others follow
from the ranges the spec gives the elements they set (assumption 6). -/
abbrev Params.Valid (p : Params) : Prop :=
  2 ≤ p.nBuf ∧ 1 ≤ p.frames ∧ 1 ≤ p.sampleRate ∧ 1 ≤ p.cps ∧
  1 ≤ p.periodMultWave ∧ 1 ≤ p.periodMultNoise ∧
  (∀ k : Fin 8, p.noiseTap[k] < 15) ∧ p.noiseFixedBit < 15 ∧ p.noiseMax ≤ 63 ∧
  p.effectDivReset ≤ tickSamples ∧ p.shutoffDivReset ≤ shutoffReload ∧
  p.envelopeDivReset ≤ envelopeReload ∧
  1 ≤ p.dcBlendDiv ∧ -32768 ≤ p.dcReset ∧ p.dcReset ≤ 32767 ∧
  p.windowMask &&& 3 = 3 ∧ p.waveRegionEnd ≤ 0x400 ∧ p.waveLockSplit ≤ p.waveRegionEnd

end Sys2Proof
end

