-- ==== Sys2Proof/Syntax.lean ====
section
/-! DEFINITION. The raw port operations of the two agents (rules R13, R15, R80) and the instruction set of the
model: one constructor per row of the opcode table (rule R88). -/

namespace Sys2Proof

/-- A write transaction, the triple of rule R80. -/
structure WriteTransaction where
  now : Cycle
  address : BitVec 32
  value : BitVec 16
deriving DecidableEq, Repr

/-- An operation as an agent issues it at SND's ports (rule R15), before WRITE is decoded. -/
inductive PortOp where
  | write (t : WriteTransaction)
  | advance (toCycle : Cycle)
  | reset
  | setMuted (b : Bool)
  | pause
  | resume
  | consume
deriving DecidableEq, Repr

/-- The instructions: one constructor per row of the opcode table (rule R88; 49 mapped rows, assumption 19). Every row of WRITE carries its
stamp `now` (rule R80) and the operand byte `v` (rules R86, R103); a table row its entry index `i` (rule R82); a
reserved row the offset `off` it was selected by (rule R90). -/
inductive Instr where
  /-- WAVE0 (rule R106). -/
  | wave0 (now : Cycle) (i : Entry) (v : Byte)
  /-- WAVE1 (rule R106). -/
  | wave1 (now : Cycle) (i : Entry) (v : Byte)
  /-- WAVE2 (rule R106). -/
  | wave2 (now : Cycle) (i : Entry) (v : Byte)
  /-- WAVE3 (rule R106). -/
  | wave3 (now : Cycle) (i : Entry) (v : Byte)
  /-- WAVE4 (rule R107). -/
  | wave4 (now : Cycle) (i : Entry) (v : Byte)
  /-- MODTBL (rule R108). -/
  | modtbl (now : Cycle) (i : Entry) (v : Byte)
  /-- INT0 (rule R110). -/
  | int0 (now : Cycle) (v : Byte)
  /-- INT1 (rule R110). -/
  | int1 (now : Cycle) (v : Byte)
  /-- INT2 (rule R110). -/
  | int2 (now : Cycle) (v : Byte)
  /-- INT3 (rule R110). -/
  | int3 (now : Cycle) (v : Byte)
  /-- INT4 (rule R110). -/
  | int4 (now : Cycle) (v : Byte)
  /-- INT5 (rule R110). -/
  | int5 (now : Cycle) (v : Byte)
  /-- LRV0 (rule R111). -/
  | lrv0 (now : Cycle) (v : Byte)
  /-- LRV1 (rule R111). -/
  | lrv1 (now : Cycle) (v : Byte)
  /-- LRV2 (rule R111). -/
  | lrv2 (now : Cycle) (v : Byte)
  /-- LRV3 (rule R111). -/
  | lrv3 (now : Cycle) (v : Byte)
  /-- LRV4 (rule R111). -/
  | lrv4 (now : Cycle) (v : Byte)
  /-- LRV5 (rule R111). -/
  | lrv5 (now : Cycle) (v : Byte)
  /-- FQL0 (rule R112). -/
  | fql0 (now : Cycle) (v : Byte)
  /-- FQL1 (rule R112). -/
  | fql1 (now : Cycle) (v : Byte)
  /-- FQL2 (rule R112). -/
  | fql2 (now : Cycle) (v : Byte)
  /-- FQL3 (rule R112). -/
  | fql3 (now : Cycle) (v : Byte)
  /-- FQL4 (rule R112). -/
  | fql4 (now : Cycle) (v : Byte)
  /-- FQL5 (rule R112). -/
  | fql5 (now : Cycle) (v : Byte)
  /-- FQH0 (rule R113). -/
  | fqh0 (now : Cycle) (v : Byte)
  /-- FQH1 (rule R113). -/
  | fqh1 (now : Cycle) (v : Byte)
  /-- FQH2 (rule R113). -/
  | fqh2 (now : Cycle) (v : Byte)
  /-- FQH3 (rule R113). -/
  | fqh3 (now : Cycle) (v : Byte)
  /-- FQH4 (rule R113). -/
  | fqh4 (now : Cycle) (v : Byte)
  /-- FQH5 (rule R113). -/
  | fqh5 (now : Cycle) (v : Byte)
  /-- EV00 (rule R114). -/
  | ev00 (now : Cycle) (v : Byte)
  /-- EV01 (rule R114). -/
  | ev01 (now : Cycle) (v : Byte)
  /-- EV02 (rule R114). -/
  | ev02 (now : Cycle) (v : Byte)
  /-- EV03 (rule R114). -/
  | ev03 (now : Cycle) (v : Byte)
  /-- EV04 (rule R114). -/
  | ev04 (now : Cycle) (v : Byte)
  /-- EV05 (rule R114). -/
  | ev05 (now : Cycle) (v : Byte)
  /-- EV10 (rule R115). -/
  | ev10 (now : Cycle) (v : Byte)
  /-- EV11 (rule R115). -/
  | ev11 (now : Cycle) (v : Byte)
  /-- EV12 (rule R115). -/
  | ev12 (now : Cycle) (v : Byte)
  /-- EV13 (rule R115). -/
  | ev13 (now : Cycle) (v : Byte)
  /-- EV14 (rule R115). -/
  | ev14 (now : Cycle) (v : Byte)
  /-- EV15 (rule R115). -/
  | ev15 (now : Cycle) (v : Byte)
  /-- RAM0 (rule R116). -/
  | ram0 (now : Cycle) (v : Byte)
  /-- RAM1 (rule R116). -/
  | ram1 (now : Cycle) (v : Byte)
  /-- RAM2 (rule R116). -/
  | ram2 (now : Cycle) (v : Byte)
  /-- RAM3 (rule R116). -/
  | ram3 (now : Cycle) (v : Byte)
  /-- RAM4 (rule R116). -/
  | ram4 (now : Cycle) (v : Byte)
  /-- SWP (rule R117). -/
  | swp (now : Cycle) (v : Byte)
  /-- SSTOP (rule R123). -/
  | sstop (now : Cycle) (v : Byte)
  /-- RSVD_ODD (rule R101). -/
  | rsvdOdd (now : Cycle) (off : Offset) (v : Byte)
  /-- RSVD_A1 (rule R101). -/
  | rsvdA1 (now : Cycle) (off : Offset) (v : Byte)
  /-- RSVD_TBL (rule R109). -/
  | rsvdTbl (now : Cycle) (off : Offset) (v : Byte)
  /-- RSVD_CHREG_a (rule R118). -/
  | rsvdChregA (now : Cycle) (off : Offset) (v : Byte)
  /-- RSVD_CHREG_b (rule R118). -/
  | rsvdChregB (now : Cycle) (off : Offset) (v : Byte)
  /-- RSVD_SWPSLOT_a (rule R118). -/
  | rsvdSwpslotA (now : Cycle) (off : Offset) (v : Byte)
  /-- RSVD_SWPSLOT_b (rule R118). -/
  | rsvdSwpslotB (now : Cycle) (off : Offset) (v : Byte)
  /-- RSVD_RAM5 (rule R118). -/
  | rsvdRam5 (now : Cycle) (off : Offset) (v : Byte)
  /-- RSVD_HIGH_a (rule R119). -/
  | rsvdHighA (now : Cycle) (off : Offset) (v : Byte)
  /-- RSVD_HIGH_b (rule R119). -/
  | rsvdHighB (now : Cycle) (off : Offset) (v : Byte)
  /-- RSVD_HIGH_c (rule R119). -/
  | rsvdHighC (now : Cycle) (off : Offset) (v : Byte)
  /-- RSVD_HIGH_d (rule R119). -/
  | rsvdHighD (now : Cycle) (off : Offset) (v : Byte)
  /-- RSVD_HIGH_e (rule R119). -/
  | rsvdHighE (now : Cycle) (off : Offset) (v : Byte)
  /-- RSVD_HIGH_f (rule R119). -/
  | rsvdHighF (now : Cycle) (off : Offset) (v : Byte)
  /-- ADVANCE (rule R140). -/
  | advance (toCycle : Cycle)
  /-- RESET (rule R260). -/
  | reset
  /-- SETMUTED (rule R230). -/
  | setMuted (b : Bool)
  /-- PAUSE (rule R231). -/
  | pause
  /-- RESUME (rule R232). -/
  | resume
  /-- CONSUME (rule R222). -/
  | consume
deriving DecidableEq, Repr

end Sys2Proof
end

