-- ==== Sys2Proof/WellFormed.lean ====
section
/-! DEFINITION. The rows of the opcode table and which instruction terms have an encoding: a reserved row's
offset is one that the row's `match` and `mask` select; every other operand takes every value of its type (rule
R88). -/

namespace Sys2Proof

/-- `mask` and `match` of a row of the opcode table, over `address[10:0]` (rule R88). -/
structure Row where
  mask : Offset
  pattern : Offset
deriving DecidableEq, Repr

/-- The row is selected by an offset: (offset & mask) = match (rule R88). -/
def Row.selects (r : Row) (off : Offset) : Bool := off &&& r.mask == r.pattern

/-- The row an instruction stands for; a port operation has none (rules R88, R89). -/
def Instr.row (i : Instr) : Option Row :=
  match i with
  | .wave0 _ _ _ => some ⟨0x783, 0x000⟩
  | .wave1 _ _ _ => some ⟨0x783, 0x080⟩
  | .wave2 _ _ _ => some ⟨0x783, 0x100⟩
  | .wave3 _ _ _ => some ⟨0x783, 0x180⟩
  | .wave4 _ _ _ => some ⟨0x783, 0x200⟩
  | .modtbl _ _ _ => some ⟨0x783, 0x280⟩
  | .int0 _ _ => some ⟨0x7FF, 0x400⟩
  | .int1 _ _ => some ⟨0x7FF, 0x440⟩
  | .int2 _ _ => some ⟨0x7FF, 0x480⟩
  | .int3 _ _ => some ⟨0x7FF, 0x4C0⟩
  | .int4 _ _ => some ⟨0x7FF, 0x500⟩
  | .int5 _ _ => some ⟨0x7FF, 0x540⟩
  | .lrv0 _ _ => some ⟨0x7FF, 0x404⟩
  | .lrv1 _ _ => some ⟨0x7FF, 0x444⟩
  | .lrv2 _ _ => some ⟨0x7FF, 0x484⟩
  | .lrv3 _ _ => some ⟨0x7FF, 0x4C4⟩
  | .lrv4 _ _ => some ⟨0x7FF, 0x504⟩
  | .lrv5 _ _ => some ⟨0x7FF, 0x544⟩
  | .fql0 _ _ => some ⟨0x7FF, 0x408⟩
  | .fql1 _ _ => some ⟨0x7FF, 0x448⟩
  | .fql2 _ _ => some ⟨0x7FF, 0x488⟩
  | .fql3 _ _ => some ⟨0x7FF, 0x4C8⟩
  | .fql4 _ _ => some ⟨0x7FF, 0x508⟩
  | .fql5 _ _ => some ⟨0x7FF, 0x548⟩
  | .fqh0 _ _ => some ⟨0x7FF, 0x40C⟩
  | .fqh1 _ _ => some ⟨0x7FF, 0x44C⟩
  | .fqh2 _ _ => some ⟨0x7FF, 0x48C⟩
  | .fqh3 _ _ => some ⟨0x7FF, 0x4CC⟩
  | .fqh4 _ _ => some ⟨0x7FF, 0x50C⟩
  | .fqh5 _ _ => some ⟨0x7FF, 0x54C⟩
  | .ev00 _ _ => some ⟨0x7FF, 0x410⟩
  | .ev01 _ _ => some ⟨0x7FF, 0x450⟩
  | .ev02 _ _ => some ⟨0x7FF, 0x490⟩
  | .ev03 _ _ => some ⟨0x7FF, 0x4D0⟩
  | .ev04 _ _ => some ⟨0x7FF, 0x510⟩
  | .ev05 _ _ => some ⟨0x7FF, 0x550⟩
  | .ev10 _ _ => some ⟨0x7FF, 0x414⟩
  | .ev11 _ _ => some ⟨0x7FF, 0x454⟩
  | .ev12 _ _ => some ⟨0x7FF, 0x494⟩
  | .ev13 _ _ => some ⟨0x7FF, 0x4D4⟩
  | .ev14 _ _ => some ⟨0x7FF, 0x514⟩
  | .ev15 _ _ => some ⟨0x7FF, 0x554⟩
  | .ram0 _ _ => some ⟨0x7FF, 0x418⟩
  | .ram1 _ _ => some ⟨0x7FF, 0x458⟩
  | .ram2 _ _ => some ⟨0x7FF, 0x498⟩
  | .ram3 _ _ => some ⟨0x7FF, 0x4D8⟩
  | .ram4 _ _ => some ⟨0x7FF, 0x518⟩
  | .swp _ _ => some ⟨0x7FF, 0x51C⟩
  | .sstop _ _ => some ⟨0x7FF, 0x580⟩
  | .rsvdOdd _ _ _ => some ⟨0x001, 0x001⟩
  | .rsvdA1 _ _ _ => some ⟨0x003, 0x002⟩
  | .rsvdTbl _ _ _ => some ⟨0x703, 0x300⟩
  | .rsvdChregA _ _ _ => some ⟨0x723, 0x420⟩
  | .rsvdChregB _ _ _ => some ⟨0x7A3, 0x520⟩
  | .rsvdSwpslotA _ _ _ => some ⟨0x73F, 0x41C⟩
  | .rsvdSwpslotB _ _ _ => some ⟨0x7FF, 0x55C⟩
  | .rsvdRam5 _ _ _ => some ⟨0x7FF, 0x558⟩
  | .rsvdHighA _ _ _ => some ⟨0x7FF, 0x584⟩
  | .rsvdHighB _ _ _ => some ⟨0x7FB, 0x588⟩
  | .rsvdHighC _ _ _ => some ⟨0x7F3, 0x590⟩
  | .rsvdHighD _ _ _ => some ⟨0x7E3, 0x5A0⟩
  | .rsvdHighE _ _ _ => some ⟨0x7C3, 0x5C0⟩
  | .rsvdHighF _ _ _ => some ⟨0x603, 0x600⟩
  | .advance _ => none
  | .reset => none
  | .setMuted _ => none
  | .pause => none
  | .resume => none
  | .consume => none

/-- The 63 encoded rows of the opcode table, in its order: 49 mapped registers and tables, as rule R88 names them, and
14 reserved rows. Where rule R88 prints 50 mapped rows, its list of names and its totals are followed (assumption
19). -/
def opcodeRows : List Row :=
  [⟨0x783, 0x000⟩, ⟨0x783, 0x080⟩, ⟨0x783, 0x100⟩, ⟨0x783, 0x180⟩, ⟨0x783, 0x200⟩, ⟨0x783, 0x280⟩, ⟨0x7FF, 0x400⟩, ⟨0x7FF, 0x440⟩] ++
  [⟨0x7FF, 0x480⟩, ⟨0x7FF, 0x4C0⟩, ⟨0x7FF, 0x500⟩, ⟨0x7FF, 0x540⟩, ⟨0x7FF, 0x404⟩, ⟨0x7FF, 0x444⟩, ⟨0x7FF, 0x484⟩, ⟨0x7FF, 0x4C4⟩] ++
  [⟨0x7FF, 0x504⟩, ⟨0x7FF, 0x544⟩, ⟨0x7FF, 0x408⟩, ⟨0x7FF, 0x448⟩, ⟨0x7FF, 0x488⟩, ⟨0x7FF, 0x4C8⟩, ⟨0x7FF, 0x508⟩, ⟨0x7FF, 0x548⟩] ++
  [⟨0x7FF, 0x40C⟩, ⟨0x7FF, 0x44C⟩, ⟨0x7FF, 0x48C⟩, ⟨0x7FF, 0x4CC⟩, ⟨0x7FF, 0x50C⟩, ⟨0x7FF, 0x54C⟩, ⟨0x7FF, 0x410⟩, ⟨0x7FF, 0x450⟩] ++
  [⟨0x7FF, 0x490⟩, ⟨0x7FF, 0x4D0⟩, ⟨0x7FF, 0x510⟩, ⟨0x7FF, 0x550⟩, ⟨0x7FF, 0x414⟩, ⟨0x7FF, 0x454⟩, ⟨0x7FF, 0x494⟩, ⟨0x7FF, 0x4D4⟩] ++
  [⟨0x7FF, 0x514⟩, ⟨0x7FF, 0x554⟩, ⟨0x7FF, 0x418⟩, ⟨0x7FF, 0x458⟩, ⟨0x7FF, 0x498⟩, ⟨0x7FF, 0x4D8⟩, ⟨0x7FF, 0x518⟩, ⟨0x7FF, 0x51C⟩] ++
  [⟨0x7FF, 0x580⟩, ⟨0x001, 0x001⟩, ⟨0x003, 0x002⟩, ⟨0x703, 0x300⟩, ⟨0x723, 0x420⟩, ⟨0x7A3, 0x520⟩, ⟨0x73F, 0x41C⟩, ⟨0x7FF, 0x55C⟩] ++
  [⟨0x7FF, 0x558⟩, ⟨0x7FF, 0x584⟩, ⟨0x7FB, 0x588⟩, ⟨0x7F3, 0x590⟩, ⟨0x7E3, 0x5A0⟩, ⟨0x7C3, 0x5C0⟩, ⟨0x603, 0x600⟩]

/-- The instruction has an encoding (rule R88). -/
def Instr.wellFormed (i : Instr) : Bool :=
  match i with
  | .wave0 _ _ _ => true
  | .wave1 _ _ _ => true
  | .wave2 _ _ _ => true
  | .wave3 _ _ _ => true
  | .wave4 _ _ _ => true
  | .modtbl _ _ _ => true
  | .int0 _ _ => true
  | .int1 _ _ => true
  | .int2 _ _ => true
  | .int3 _ _ => true
  | .int4 _ _ => true
  | .int5 _ _ => true
  | .lrv0 _ _ => true
  | .lrv1 _ _ => true
  | .lrv2 _ _ => true
  | .lrv3 _ _ => true
  | .lrv4 _ _ => true
  | .lrv5 _ _ => true
  | .fql0 _ _ => true
  | .fql1 _ _ => true
  | .fql2 _ _ => true
  | .fql3 _ _ => true
  | .fql4 _ _ => true
  | .fql5 _ _ => true
  | .fqh0 _ _ => true
  | .fqh1 _ _ => true
  | .fqh2 _ _ => true
  | .fqh3 _ _ => true
  | .fqh4 _ _ => true
  | .fqh5 _ _ => true
  | .ev00 _ _ => true
  | .ev01 _ _ => true
  | .ev02 _ _ => true
  | .ev03 _ _ => true
  | .ev04 _ _ => true
  | .ev05 _ _ => true
  | .ev10 _ _ => true
  | .ev11 _ _ => true
  | .ev12 _ _ => true
  | .ev13 _ _ => true
  | .ev14 _ _ => true
  | .ev15 _ _ => true
  | .ram0 _ _ => true
  | .ram1 _ _ => true
  | .ram2 _ _ => true
  | .ram3 _ _ => true
  | .ram4 _ _ => true
  | .swp _ _ => true
  | .sstop _ _ => true
  | .rsvdOdd _ off _ => Row.selects ⟨0x001, 0x001⟩ off
  | .rsvdA1 _ off _ => Row.selects ⟨0x003, 0x002⟩ off
  | .rsvdTbl _ off _ => Row.selects ⟨0x703, 0x300⟩ off
  | .rsvdChregA _ off _ => Row.selects ⟨0x723, 0x420⟩ off
  | .rsvdChregB _ off _ => Row.selects ⟨0x7A3, 0x520⟩ off
  | .rsvdSwpslotA _ off _ => Row.selects ⟨0x73F, 0x41C⟩ off
  | .rsvdSwpslotB _ off _ => Row.selects ⟨0x7FF, 0x55C⟩ off
  | .rsvdRam5 _ off _ => Row.selects ⟨0x7FF, 0x558⟩ off
  | .rsvdHighA _ off _ => Row.selects ⟨0x7FF, 0x584⟩ off
  | .rsvdHighB _ off _ => Row.selects ⟨0x7FB, 0x588⟩ off
  | .rsvdHighC _ off _ => Row.selects ⟨0x7F3, 0x590⟩ off
  | .rsvdHighD _ off _ => Row.selects ⟨0x7E3, 0x5A0⟩ off
  | .rsvdHighE _ off _ => Row.selects ⟨0x7C3, 0x5C0⟩ off
  | .rsvdHighF _ off _ => Row.selects ⟨0x603, 0x600⟩ off
  | .advance _ => true
  | .reset => true
  | .setMuted _ => true
  | .pause => true
  | .resume => true
  | .consume => true

end Sys2Proof
end

