-- ==== Sys2Proof/Decode.lean ====
section
/-! DEFINITION. From a port operation to an instruction, by the encoding tables of rules R81 to R88, and back. -/

namespace Sys2Proof

/-- The offset a transaction addresses, `address[10:0]`, with the default window (rule R61). -/
def WriteTransaction.offset (t : WriteTransaction) : Offset := t.address.extractLsb' 0 11

/-- The operation as SND sees it through a window of these address bits: of the address of a WRITE the other bits
are 0 (rules R17, R61; assumption 20). -/
def PortOp.inWindow (mask : Offset) (op : PortOp) : PortOp :=
  match op with
  | .write t => .write { t with address := t.address &&& mask.zeroExtend 32 }
  | .advance toCycle => .advance toCycle
  | .reset => .reset
  | .setMuted b => .setMuted b
  | .pause => .pause
  | .resume => .resume
  | .consume => .consume

/-- The stamp an operation carries; 0 for one that carries none (rules R15, R80, R140). -/
def PortOp.stamp (op : PortOp) : Cycle :=
  match op with
  | .write t => t.now
  | .advance toCycle => toCycle
  | .reset => 0
  | .setMuted _ => 0
  | .pause => 0
  | .resume => 0
  | .consume => 0

/-- The operand byte, `value[7:0]` (rules R86, R103). -/
def WriteTransaction.operand (t : WriteTransaction) : Byte := t.value.extractLsb' 0 8

/-- The offset of entry `i` of table TABLE in format T (rule R82). -/
def tableOffset (table : Nat) (i : Entry) : Offset := BitVec.ofNat 11 (table * 0x80 + i.toNat * 4)

/-- The offset of register REG of channel `c` in format C (rule R83). -/
def regOffset (c : Chan) (reg : Nat) : Offset := BitVec.ofNat 11 (0x400 + c.val * 0x40 + reg * 4)

/-- The offset of SSTOP (rule R85). -/
def sstopOffset : Offset := 0x580

/-- Format T: TABLE selects the row (rule R82). -/
def decodeTable (now : Cycle) (off : Offset) (v : Byte) : Instr :=
  let i : Entry := off.extractLsb' 2 5
  match (off.extractLsb' 7 3).toNat with
  | 0 => .wave0 now i v
  | 1 => .wave1 now i v
  | 2 => .wave2 now i v
  | 3 => .wave3 now i v
  | 4 => .wave4 now i v
  | 5 => .modtbl now i v
  | _ => .rsvdTbl now off v

/-- Format C, the block of channel 0: REG selects the row (rules R83, R90). -/
def decodeBlock0 (now : Cycle) (off : Offset) (v : Byte) : Instr :=
  match (off.extractLsb' 2 4).toNat with
  | 0 => .int0 now v
  | 1 => .lrv0 now v
  | 2 => .fql0 now v
  | 3 => .fqh0 now v
  | 4 => .ev00 now v
  | 5 => .ev10 now v
  | 6 => .ram0 now v
  | 7 => .rsvdSwpslotA now off v
  | _ => .rsvdChregA now off v

/-- Format C, the block of channel 1: REG selects the row (rules R83, R90). -/
def decodeBlock1 (now : Cycle) (off : Offset) (v : Byte) : Instr :=
  match (off.extractLsb' 2 4).toNat with
  | 0 => .int1 now v
  | 1 => .lrv1 now v
  | 2 => .fql1 now v
  | 3 => .fqh1 now v
  | 4 => .ev01 now v
  | 5 => .ev11 now v
  | 6 => .ram1 now v
  | 7 => .rsvdSwpslotA now off v
  | _ => .rsvdChregA now off v

/-- Format C, the block of channel 2: REG selects the row (rules R83, R90). -/
def decodeBlock2 (now : Cycle) (off : Offset) (v : Byte) : Instr :=
  match (off.extractLsb' 2 4).toNat with
  | 0 => .int2 now v
  | 1 => .lrv2 now v
  | 2 => .fql2 now v
  | 3 => .fqh2 now v
  | 4 => .ev02 now v
  | 5 => .ev12 now v
  | 6 => .ram2 now v
  | 7 => .rsvdSwpslotA now off v
  | _ => .rsvdChregA now off v

/-- Format C, the block of channel 3: REG selects the row (rules R83, R90). -/
def decodeBlock3 (now : Cycle) (off : Offset) (v : Byte) : Instr :=
  match (off.extractLsb' 2 4).toNat with
  | 0 => .int3 now v
  | 1 => .lrv3 now v
  | 2 => .fql3 now v
  | 3 => .fqh3 now v
  | 4 => .ev03 now v
  | 5 => .ev13 now v
  | 6 => .ram3 now v
  | 7 => .rsvdSwpslotA now off v
  | _ => .rsvdChregA now off v

/-- Format C, the block of channel 4: REG selects the row (rules R83, R90). -/
def decodeBlock4 (now : Cycle) (off : Offset) (v : Byte) : Instr :=
  match (off.extractLsb' 2 4).toNat with
  | 0 => .int4 now v
  | 1 => .lrv4 now v
  | 2 => .fql4 now v
  | 3 => .fqh4 now v
  | 4 => .ev04 now v
  | 5 => .ev14 now v
  | 6 => .ram4 now v
  | 7 => .swp now v
  | _ => .rsvdChregB now off v

/-- Format C, the block of channel 5: REG selects the row (rules R83, R90). -/
def decodeBlock5 (now : Cycle) (off : Offset) (v : Byte) : Instr :=
  match (off.extractLsb' 2 4).toNat with
  | 0 => .int5 now v
  | 1 => .lrv5 now v
  | 2 => .fql5 now v
  | 3 => .fqh5 now v
  | 4 => .ev05 now v
  | 5 => .ev15 now v
  | 6 => .rsvdRam5 now off v
  | 7 => .rsvdSwpslotB now off v
  | _ => .rsvdChregB now off v

/-- Format S and the offsets above it, 0x580..0x7FC (rules R85, R90): each reserved row is the one whose
`match` and `mask` select the offset (rule R88). -/
def decodeHigh (now : Cycle) (off : Offset) (v : Byte) : Instr :=
  if off = 0x580 then .sstop now v
  else if off = 0x584 then .rsvdHighA now off v
  else if off < 0x590 then .rsvdHighB now off v
  else if off < 0x5A0 then .rsvdHighC now off v
  else if off < 0x5C0 then .rsvdHighD now off v
  else if off < 0x600 then .rsvdHighE now off v
  else .rsvdHighF now off v

/-- Which row a write transaction selects: the tests of rule R87, in its order. Every offset selects a row, so
no transaction is refused (rules R88, R90). -/
def decodeWrite (t : WriteTransaction) : Instr :=
  let off := t.offset
  let v := t.operand
  if off.getLsbD 0 then .rsvdOdd t.now off v
  else if off.getLsbD 1 then .rsvdA1 t.now off v
  else if off.getLsbD 10 then
    match (off.extractLsb' 6 4).toNat with
    | 0 => decodeBlock0 t.now off v
    | 1 => decodeBlock1 t.now off v
    | 2 => decodeBlock2 t.now off v
    | 3 => decodeBlock3 t.now off v
    | 4 => decodeBlock4 t.now off v
    | 5 => decodeBlock5 t.now off v
    | _ => decodeHigh t.now off v
  else decodeTable t.now off v

/-- The instruction a port operation is (rules R15, R87, R89). -/
def decode (op : PortOp) : Instr :=
  match op with
  | .write t => decodeWrite t
  | .advance toCycle => .advance toCycle
  | .reset => .reset
  | .setMuted b => .setMuted b
  | .pause => .pause
  | .resume => .resume
  | .consume => .consume

/-- The write transaction at an offset, in the form rule R93 gives: the address is the window's base plus the
offset, the value is `v` with a zero high byte (assumption 12). -/
def encodeWrite (now : Cycle) (off : Offset) (v : Byte) : PortOp :=
  .write (WriteTransaction.mk now (windowBase + off.zeroExtend 32) (v.zeroExtend 16))

/-- The port operation that stands for an instruction (rules R82 to R85, R89, R93). -/
def encode (i : Instr) : PortOp :=
  match i with
  | .wave0 now i v => encodeWrite now (tableOffset 0 i) v
  | .wave1 now i v => encodeWrite now (tableOffset 1 i) v
  | .wave2 now i v => encodeWrite now (tableOffset 2 i) v
  | .wave3 now i v => encodeWrite now (tableOffset 3 i) v
  | .wave4 now i v => encodeWrite now (tableOffset 4 i) v
  | .modtbl now i v => encodeWrite now (tableOffset 5 i) v
  | .int0 now v => encodeWrite now (regOffset 0 0) v
  | .int1 now v => encodeWrite now (regOffset 1 0) v
  | .int2 now v => encodeWrite now (regOffset 2 0) v
  | .int3 now v => encodeWrite now (regOffset 3 0) v
  | .int4 now v => encodeWrite now (regOffset 4 0) v
  | .int5 now v => encodeWrite now (regOffset 5 0) v
  | .lrv0 now v => encodeWrite now (regOffset 0 1) v
  | .lrv1 now v => encodeWrite now (regOffset 1 1) v
  | .lrv2 now v => encodeWrite now (regOffset 2 1) v
  | .lrv3 now v => encodeWrite now (regOffset 3 1) v
  | .lrv4 now v => encodeWrite now (regOffset 4 1) v
  | .lrv5 now v => encodeWrite now (regOffset 5 1) v
  | .fql0 now v => encodeWrite now (regOffset 0 2) v
  | .fql1 now v => encodeWrite now (regOffset 1 2) v
  | .fql2 now v => encodeWrite now (regOffset 2 2) v
  | .fql3 now v => encodeWrite now (regOffset 3 2) v
  | .fql4 now v => encodeWrite now (regOffset 4 2) v
  | .fql5 now v => encodeWrite now (regOffset 5 2) v
  | .fqh0 now v => encodeWrite now (regOffset 0 3) v
  | .fqh1 now v => encodeWrite now (regOffset 1 3) v
  | .fqh2 now v => encodeWrite now (regOffset 2 3) v
  | .fqh3 now v => encodeWrite now (regOffset 3 3) v
  | .fqh4 now v => encodeWrite now (regOffset 4 3) v
  | .fqh5 now v => encodeWrite now (regOffset 5 3) v
  | .ev00 now v => encodeWrite now (regOffset 0 4) v
  | .ev01 now v => encodeWrite now (regOffset 1 4) v
  | .ev02 now v => encodeWrite now (regOffset 2 4) v
  | .ev03 now v => encodeWrite now (regOffset 3 4) v
  | .ev04 now v => encodeWrite now (regOffset 4 4) v
  | .ev05 now v => encodeWrite now (regOffset 5 4) v
  | .ev10 now v => encodeWrite now (regOffset 0 5) v
  | .ev11 now v => encodeWrite now (regOffset 1 5) v
  | .ev12 now v => encodeWrite now (regOffset 2 5) v
  | .ev13 now v => encodeWrite now (regOffset 3 5) v
  | .ev14 now v => encodeWrite now (regOffset 4 5) v
  | .ev15 now v => encodeWrite now (regOffset 5 5) v
  | .ram0 now v => encodeWrite now (regOffset 0 6) v
  | .ram1 now v => encodeWrite now (regOffset 1 6) v
  | .ram2 now v => encodeWrite now (regOffset 2 6) v
  | .ram3 now v => encodeWrite now (regOffset 3 6) v
  | .ram4 now v => encodeWrite now (regOffset 4 6) v
  | .swp now v => encodeWrite now (regOffset 4 7) v
  | .sstop now v => encodeWrite now sstopOffset v
  | .rsvdOdd now off v => encodeWrite now off v
  | .rsvdA1 now off v => encodeWrite now off v
  | .rsvdTbl now off v => encodeWrite now off v
  | .rsvdChregA now off v => encodeWrite now off v
  | .rsvdChregB now off v => encodeWrite now off v
  | .rsvdSwpslotA now off v => encodeWrite now off v
  | .rsvdSwpslotB now off v => encodeWrite now off v
  | .rsvdRam5 now off v => encodeWrite now off v
  | .rsvdHighA now off v => encodeWrite now off v
  | .rsvdHighB now off v => encodeWrite now off v
  | .rsvdHighC now off v => encodeWrite now off v
  | .rsvdHighD now off v => encodeWrite now off v
  | .rsvdHighE now off v => encodeWrite now off v
  | .rsvdHighF now off v => encodeWrite now off v
  | .advance toCycle => .advance toCycle
  | .reset => .reset
  | .setMuted b => .setMuted b
  | .pause => .pause
  | .resume => .resume
  | .consume => .consume

/-- A write transaction laid out as one number: address in bits 31:0, value in bits 47:32, `now` in bits
111:48 (assumption 13). -/
def transactionOfWord (w : Nat) : WriteTransaction where
  now := w >>> 48
  address := BitVec.ofNat 32 w
  value := BitVec.ofNat 16 (w >>> 32)

/-- The write transaction whose low `nbits` bits are those of `w` and whose other bits are 0. -/
def tableTransaction (nbits w : Nat) : WriteTransaction := transactionOfWord (w % 2 ^ nbits)

/-- The instruction the decoder reads from a row's bits; a port operation has no bits (rule R89), and a
transaction has 112 (assumption 13). -/
def decodeTableWord (nbits w : Nat) : Option Instr :=
  if 1 ≤ nbits ∧ nbits ≤ 112 then some (decode (.write (tableTransaction nbits w))) else none

end Sys2Proof
end

