-- ==== Sys2Proof/Machine/State.lean ====
section
/-! DEFINITION. The machine's state: everything the spec gives SND (rules R20 to R55), the parameters, the port
operations still to be performed and the result of the last CONSUME; its value after reset (rules R58, R264). -/

namespace Sys2Proof.Machine

/-- The bytes of the wave-table RAM class, by offset in the register window: strictly rising offsets, no byte
equal to `unlistedByte` (rules R30, R31, R60, R82; assumption 10). -/
abbrev Memory := List Host.Cell

/-- What a table entry that is not listed holds: the reset value of every entry (rules R30, R31, R261). -/
def unlistedByte : Byte := 0

/-- The registers and counters that every channel has (rules R21 to R26, R33 to R37). -/
structure Channel where
  /-- INT[c] (rule R21). -/
  int : Byte
  /-- LRV[c] (rule R22). -/
  lrv : Byte
  /-- FQL[c] (rule R23). -/
  fql : Byte
  /-- FQH[c] (rule R24). -/
  fqh : Byte
  /-- EV0[c] (rule R25). -/
  ev0 : Byte
  /-- EV1[c] (rule R26). -/
  ev1 : Byte
  /-- Cycles to the channel's next channel tick (rule R33). -/
  frequencyTimer : Nat
  /-- The current amplitude (rule R34). -/
  envelopeValue : BitVec 4
  /-- Envelope stages before the next envelope step (rule R35). -/
  envelopeTimer : BitVec 3
  /-- Stepping has stopped at saturation (rule R36). -/
  envelopeFrozen : Bool
  /-- The 5-bit shutoff counter (rule R37). -/
  shutoffTimer : BitVec 5
deriving DecidableEq, Repr

/-- A channel after reset (rules R58, R260). -/
def Channel.reset : Channel := ⟨0, 0, 0, 0, 0, 0, 0, 0, 0, false, 0⟩

/-- `modulationPhase` (rule R41). -/
inductive ModPhase where
  | idle
  | armed
  | active
deriving DecidableEq, Repr

/-- `modulationLock` (rule R42). -/
inductive ModLock where
  | none
  | lowByte
  | highByte
deriving DecidableEq, Repr

/-- A frame: its left and right lane (rules R49, R65). -/
structure Frame where
  l : Lane
  r : Lane
deriving DecidableEq, Repr

/-- The frame (0, 0) (rules R49, R160, R224). -/
abbrev Frame.zero : Frame := ⟨0, 0⟩

/-- Why the machine stops with a fault: never. No operation of SND raises anything and the list of rule R244
forbids adding a fault, so the type has no constructor (rules R240, R244). -/
inductive Fault where
deriving DecidableEq, Repr

/-- Why an instruction has no meaning. -/
inductive Refusal where
  /-- Raised by an arm of `exec` for an instruction that has no meaning in the model; no arm does. Safe. -/
  | notModelled (mnemonic : String)
  /-- Raised by `step` alone, in a state whose parameters break their constraints: such a machine is not
  constructed (rule R6, item U12; assumption 6). Safe. -/
  | invalidParameters
  /-- Raised by `step` alone, for a pending operation whose stamp has more than `CYCLE_BITS` bits: no agent can issue
  it, and a stamp that reaches that bound is not modelled (rules R44, R80, R140, item U9; assumption 4). Safe. -/
  | stampOutOfRange
deriving DecidableEq, Repr

/-- The state of SND. -/
structure State where
  /-- The parameters, fixed for a machine (rules R6, R7; assumption 3). -/
  cfg : Params
  /-- The channels 0..5 (rules R20 to R26, R33 to R37). -/
  chan : Vector Channel 6
  /-- RAM[0..4] (rule R27). -/
  ram : Vector Byte 5
  /-- SWP (rule R28). -/
  swp : Byte
  /-- The wave tables and the modulation table (rules R30, R31). -/
  mem : Memory
  /-- The wave phase accumulators of channels 0..4 (rule R32). -/
  samplePhase : Vector Entry 5
  /-- The frequency channel 4 plays (rule R38). -/
  sweepFrequency : BitVec 11
  /-- Ticks until the sweep/modulation interval expires (rule R39). -/
  sweepTimer : Nat
  /-- Index of the next modulation-table entry (rule R40). -/
  modulationCounter : Entry
  /-- Where the pass through the modulation table stands (rule R41). -/
  modulationPhase : ModPhase
  /-- Which frequency byte of channel 4 was last written since the last tick (rule R42). -/
  modulationLock : ModLock
  /-- The 15-bit LFSR (rule R43). -/
  noiseShift : BitVec 15
  /-- The cycle stamp up to which samples have been produced (rule R44). -/
  lastSynthesizedCycle : Cycle
  /-- Samples before the next effects tick (rule R45). -/
  effectDivider : Nat
  /-- Ticks before the next shutoff stage (rule R46). -/
  shutoffDivider : Nat
  /-- Shutoff stages before the next envelope stage (rule R47). -/
  envelopeDivider : Nat
  /-- The DC-offset accumulator (rule R48). -/
  dcOffset : Int
  /-- The PCM buffers: `N_BUF` lists of `FRAMES` frames (rule R49; assumption 11). -/
  buf : List (List Frame)
  /-- The readiness flags, one per buffer (rule R50). -/
  ready : List Bool
  /-- Index of the buffer being filled (rule R51). -/
  prodCursor : Nat
  /-- Index of the next frame to be produced in it (rule R51). -/
  fillPos : Nat
  /-- Index of the buffer the consumer takes next (rule R52). -/
  consCursor : Nat
  /-- (rule R54) -/
  muted : Bool
  /-- (rule R55) -/
  paused : Bool
  /-- The port operations the two agents have issued and SND has not performed, in the order of their
  interleaving (rules R13, R15, R74; assumption 1). -/
  pending : List PortOp
  /-- The frames the last CONSUME returned, if there was one (rules R63, R222; assumption 7). -/
  returned : Option (List Frame)
deriving DecidableEq, Repr

/-- The state at power-on of a machine with parameters `p`, no operation issued (rules R58, R263, R264). -/
def State.powerOn (p : Params) : State where
  cfg := p
  chan := Vector.replicate 6 Channel.reset
  ram := Vector.replicate 5 0
  swp := 0
  mem := []
  samplePhase := Vector.replicate 5 0
  sweepFrequency := 0
  sweepTimer := 0
  modulationCounter := 0
  modulationPhase := .idle
  modulationLock := .none
  noiseShift := 0
  lastSynthesizedCycle := 0
  effectDivider := p.effectDivReset
  shutoffDivider := p.shutoffDivReset
  envelopeDivider := p.envelopeDivReset
  dcOffset := p.dcReset
  buf := List.replicate p.nBuf (List.replicate p.frames Frame.zero)
  ready := List.replicate p.nBuf false
  prodCursor := 0
  fillPos := 0
  consCursor := 0
  muted := false
  paused := false
  pending := []
  returned := none

/-- The machine right after reset, with the default parameters (rules R6, R7, R58, R264). -/
def State.reset : State := State.powerOn Params.default

/-- What performing an instruction or a step answers. -/
abbrev Result := Host.Outcome State Fault Refusal

end Sys2Proof.Machine
end

