-- ==== Sys2Proof/Machine/Operands.lean ====
section
/-! DEFINITION. The operands: width functions (rules R8, R9), the fields of each register (rules R12, R21 to
R29, R86) and the quantities assembled from stored bytes (rule R86). -/

namespace Sys2Proof.Machine

/-- `sext_8` (rule R9): a byte read as a two's-complement number. -/
def sext8 (b : Byte) : Int := b.toInt

/-- `zext_16` (rules R9, R158): what a lane holds after a non-negative sum is stored. -/
def zext16 (n : Nat) : Lane := BitVec.ofNat 16 n

/-- `wrap16` (rules R9, R205): what a lane holds after a signed sum is stored. -/
def wrap16 (n : Int) : Lane := BitVec.ofInt 16 n

/-- INT bit 7, `enable` (rule R21). -/
def intEnable (b : Byte) : Bool := b.getLsbD 7

/-- INT bit 5, `autoShutoff` (rule R21). -/
def intAutoShutoff (b : Byte) : Bool := b.getLsbD 5

/-- INT bits 4:0, `interval` (rule R21). -/
def intInterval (b : Byte) : BitVec 5 := b.extractLsb' 0 5

/-- LRV bits 7:4, `panL` (rule R22). -/
def panL (b : Byte) : BitVec 4 := b.extractLsb' 4 4

/-- LRV bits 3:0, `panR` (rule R22). -/
def panR (b : Byte) : BitVec 4 := b.extractLsb' 0 4

/-- FQH bits 2:0 (rule R24). -/
def freqHigh (b : Byte) : BitVec 3 := b.extractLsb' 0 3

/-- EV0 bits 7:4, `envInit` (rule R25). -/
def envInit (b : Byte) : BitVec 4 := b.extractLsb' 4 4

/-- EV0 bit 3, `envDir` (rule R25). -/
def envDir (b : Byte) : Bool := b.getLsbD 3

/-- EV0 bits 2:0, `envInterval` (rule R25). -/
def envInterval (b : Byte) : BitVec 3 := b.extractLsb' 0 3

/-- EV1 bit 0, `envEnable` (rule R26). -/
def envEnable (b : Byte) : Bool := b.getLsbD 0

/-- EV1 bit 1, `envRepeat` (rule R26). -/
def envRepeat (b : Byte) : Bool := b.getLsbD 1

/-- EV1[4] bit 4, `modMode` (rules R12, R26). -/
def modMode (b : Byte) : Bool := b.getLsbD 4

/-- EV1[4] bit 5, `modRepeat` (rules R12, R26). -/
def modRepeat (b : Byte) : Bool := b.getLsbD 5

/-- EV1[4] bit 6, `modEnable` (rules R12, R26). -/
def modEnable (b : Byte) : Bool := b.getLsbD 6

/-- EV1[5] bits 6:4, `tapSel` (rule R26). -/
def tapSel (b : Byte) : BitVec 3 := b.extractLsb' 4 3

/-- RAM bits 3:0, `waveSel` (rule R27). -/
def waveSel (b : Byte) : BitVec 4 := b.extractLsb' 0 4

/-- SWP bit 7, `swpClk` (rule R28). -/
def swpClk (b : Byte) : Bool := b.getLsbD 7

/-- SWP bits 6:4, `swpInterval` (rule R28). -/
def swpInterval (b : Byte) : BitVec 3 := b.extractLsb' 4 3

/-- SWP bit 3, `swpDir` (rule R28). -/
def swpDir (b : Byte) : Bool := b.getLsbD 3

/-- SWP bits 2:0, `swpShift` (rule R28). -/
def swpShift (b : Byte) : BitVec 3 := b.extractLsb' 0 3

/-- SSTOP bit 0, `stop` (rule R29). -/
def sstopStop (b : Byte) : Bool := b.getLsbD 0

/-- A table byte's level, bits 5:0 (rules R30, R152). -/
def waveLevel (b : Byte) : Nat := (b.extractLsb' 0 6).toNat

/-- `FreqReg` of a channel: FQH[2:0] above FQL (rules R12, R24). -/
def freqReg (ch : Channel) : BitVec 11 := freqHigh ch.fqh ++ ch.fql

/-- The sweep interval in ticks, `swpInterval` × `SWEEP_CLK[swpClk]` (rules R28, R39, R86). -/
def sweepInterval (cfg : Params) (swp : Byte) : Nat :=
  (swpInterval swp).toNat * (if swpClk swp then cfg.sweepClk1 else cfg.sweepClk0)

/-- The LFSR tap of a noise-control byte, `NOISE_TAP[tapSel]` (rule R151). -/
def noiseTapBit (cfg : Params) (ev1 : Byte) : Nat := cfg.noiseTap[(tapSel ev1).toFin]

/-- The registers of channel `c`. -/
def State.ch (s : State) (c : Chan) : Channel := s.chan[c]

/-- `Period(c)`: the channel's current period in cycles (rule R146). -/
def period (s : State) (c : Chan) : Nat :=
  if c = chNoise then (freqLimit - (freqReg (s.ch c)).toNat) * s.cfg.periodMultNoise
  else if c = chSweep then (freqLimit - s.sweepFrequency.toNat) * s.cfg.periodMultWave
  else (freqLimit - (freqReg (s.ch c)).toNat) * s.cfg.periodMultWave

/-- `FRAMES` frames of (0, 0) (rule R224). -/
def silence (s : State) : List Frame := List.replicate s.cfg.frames Frame.zero

end Sys2Proof.Machine
end

