-- ==== Sys2Proof/Machine/Flags.lean ====
section
/-! DEFINITION. The status flags (rule R56): the enable bits and what is computed from them, the modulation
flags, the readiness flags. SND has no arithmetic condition codes. -/

namespace Sys2Proof.Machine

/-- `enabled(c)` (rule R12). -/
def enabled (s : State) (c : Chan) : Bool := intEnable (s.ch c).int

/-- `anyWaveEnabled` (rule R12). -/
def anyWaveEnabled (s : State) : Bool :=
  enabled s 0 || enabled s 1 || enabled s 2 || enabled s 3 || enabled s 4

/-- `modulationEnabled` (rule R12). -/
def modulationEnabled (s : State) : Bool :=
  modEnable (s.ch chSweep).ev1 && modMode (s.ch chSweep).ev1

/-- A channel with INT bit 7 cleared and the other bits kept (rules R123, R176, R184). -/
def clearEnable (ch : Channel) : Channel := { ch with int := ch.int &&& 0x7F }

/-- The wave-table write lock at an offset: within the wave-table RAM class while channel 5 is enabled, and in its
lower half while any wave channel is (rules R69, R104, R105). -/
def tableLocked (s : State) (off : Offset) : Bool :=
  decide (off.toNat < s.cfg.waveRegionEnd) &&
    (enabled s chNoise || (decide (off.toNat < s.cfg.waveLockSplit) && anyWaveEnabled s))

/-- The synthesis gate: enabled with a nonzero envelope (rule R143). -/
def gateOpen (s : State) (c : Chan) : Bool := enabled s c && (s.ch c).envelopeValue != 0

/-- `ready[k]` (rule R50). -/
def State.readyAt (s : State) (k : Nat) : Bool := s.ready.getD k false

/-- `ready[k] <- b` (rule R50). -/
def setReady (k : Nat) (b : Bool) (s : State) : State := { s with ready := s.ready.set k b }

end Sys2Proof.Machine
end

