-- ==== Sys2Proof/Machine/Ops.lean ====
section
/-! DEFINITION. The named operations over the tables, the channels and the ring. SND takes no exception and
returns from none (rules R240, R247), so there is no operation for either. -/

namespace Sys2Proof.Machine

/-- The byte at a key. -/
def Memory.read (m : Memory) (a : Nat) : Byte :=
  match m with
  | [] => unlistedByte
  | (k, b) :: rest => if k = a then b else Memory.read rest a

/-- The memory with `b` at key `a`, in canonical form: writing `unlistedByte` removes the entry. -/
def Memory.write (m : Memory) (a : Nat) (b : Byte) : Memory :=
  match m with
  | [] => if b = unlistedByte then [] else [(a, b)]
  | (k, x) :: rest =>
    if a < k then (if b = unlistedByte then (k, x) :: rest else (a, b) :: (k, x) :: rest)
    else if a = k then (if b = unlistedByte then rest else (a, b) :: rest)
    else (k, x) :: Memory.write rest a b

/-- The canonical form: keys strictly rise and no listed byte is `unlistedByte`. -/
def Memory.wf (m : Memory) : Bool :=
  match m with
  | [] => true
  | (k, b) :: rest => b != unlistedByte && rest.all (fun p => decide (k < p.1)) && Memory.wf rest

/-- `wave[t][i]` (rule R30). -/
def State.wave (s : State) (t : WaveChan) (i : Entry) : Byte := s.mem.read (tableOffset t.val i).toNat

/-- `mod[i]` (rule R31). -/
def State.mod (s : State) (i : Entry) : Byte := s.mem.read (tableOffset 5 i).toNat

/-- Store into a table unless the write lock rejects the write (rules R104 to R108). -/
def writeTable (off : Offset) (v : Byte) (s : State) : State :=
  if tableLocked s off then s else { s with mem := s.mem.write off.toNat v }

/-- The registers of channel `c` replaced. -/
def State.setCh (s : State) (c : Chan) (ch : Channel) : State := { s with chan := s.chan.set c ch }

/-- `f` applied to each of the six channels (rules R123, R184, R186). -/
def mapChannels (f : Channel → Channel) (v : Vector Channel 6) : Vector Channel 6 :=
  #v[f v[0], f v[1], f v[2], f v[3], f v[4], f v[5]]

/-- `samplePhase[c]`, for a wave channel; the noise channel has none (rule R32). -/
def State.phase (s : State) (c : Chan) : Entry :=
  if h : c.val < 5 then s.samplePhase[c.val] else 0

/-- `samplePhase[c] <- p`, for a wave channel; nothing for the noise channel (rule R32). -/
def State.setPhase (s : State) (c : Chan) (p : Entry) : State :=
  if h : c.val < 5 then { s with samplePhase := s.samplePhase.set c.val p } else s

/-- RAM[c], for a wave channel; there is no RAM[5] (rule R27). -/
def State.ramAt (s : State) (c : Chan) : Byte := if h : c.val < 5 then s.ram[c.val] else 0

/-- RAM[c] <- v (rule R116). -/
def State.setRam (s : State) (c : WaveChan) (v : Byte) : State := { s with ram := s.ram.set c v }

/-- `buf[k]` (rule R49). -/
def State.bufAt (s : State) (k : Nat) : List Frame := s.buf.getD k []

/-- `buf[prodCursor][fillPos] <- f` (rule R158). -/
def storeFrame (f : Frame) (s : State) : State :=
  { s with buf := s.buf.set s.prodCursor ((s.bufAt s.prodCursor).set s.fillPos f) }

/-- The index after `k` in the ring (rules R215, R222). -/
def nextIndex (s : State) (k : Nat) : Nat := (k + 1) % s.cfg.nBuf

/-- `HandOff` (rules R215, R216): publish the completed buffer and move on, or drop it. -/
def handOff (s : State) : State :=
  if s.readyAt (nextIndex s s.prodCursor) then s
  else { setReady s.prodCursor true s with prodCursor := nextIndex s s.prodCursor }

/-- CONSUME answers these frames (rule R222; assumption 7). -/
def answer (out : List Frame) (s : State) : State := { s with returned := some out }

/-- `Consume` (rules R222 to R226). -/
def consume (s : State) : State :=
  if s.paused then answer (silence s) s
  else if s.readyAt s.consCursor then
    answer (if s.muted then silence s else s.bufAt s.consCursor)
      { setReady s.consCursor false s with consCursor := nextIndex s s.consCursor }
  else answer (silence s) s

end Sys2Proof.Machine
end

