-- ==== Sys2Proof/Machine/Effects.lean ====
section
/-! DEFINITION. The periodic effects: the tick cascade, the sweep/modulation stage, the shutoff stage and the
envelope stage (rules R170 to R189). -/

namespace Sys2Proof.Machine

/-- The candidate sweep frequency; natural-number subtraction is the clamp at 0 (rule R175). -/
def sweepCandidate (s : State) : Nat :=
  let f := s.sweepFrequency.toNat
  let d := f >>> (swpShift s.swp).toNat
  if swpDir s.swp then f + d else f - d

/-- In sweep mode, the candidate reaches or exceeds 2048 (rules R175, R176). -/
def sweepOverflow (s : State) : Bool :=
  !modMode (s.ch chSweep).ev1 && decide (freqLimit ≤ sweepCandidate s)

/-- An overflowing candidate disables channel 4 at once (rule R176). -/
def sweepCheck (s : State) : State :=
  if sweepOverflow s then s.setCh chSweep (clearEnable (s.ch chSweep)) else s

/-- The modulated frequency before the register-lock quirk (rule R180). -/
def modulatedBase (s : State) : BitVec 11 :=
  BitVec.ofInt 11 ((freqReg (s.ch chSweep)).toNat + sext8 (s.mod s.modulationCounter))

/-- The modulated frequency with the register-lock quirk (rules R180, R181). -/
def modulated (s : State) : BitVec 11 :=
  let new := modulatedBase s
  match s.modulationLock with
  | .none => new
  | .lowByte => new.extractLsb' 8 3 ++ (s.ch chSweep).fql
  | .highByte => freqHigh (s.ch chSweep).fqh ++ new.extractLsb' 0 8

/-- The frequency update of an expiry, by mode (rules R178, R179, R180). -/
def expiryFrequency (s : State) : State :=
  if modMode (s.ch chSweep).ev1 then
    if s.modulationPhase = .armed ∨ modRepeat (s.ch chSweep).ev1 then
      { s with sweepFrequency := modulated s }
    else s
  else if sweepOverflow s then s
  else { s with sweepFrequency := BitVec.ofNat 11 (sweepCandidate s) }

/-- The counter and phase of an expiry (rule R182). -/
def expiryCounter (s : State) : State :=
  let n := s.modulationCounter + 1
  { s with
    modulationCounter := n
    modulationPhase :=
      if n = 0 ∧ s.modulationPhase = .armed then .active else s.modulationPhase }

/-- The interval timer and, on expiry, what it drives (rules R177 to R182). -/
def intervalStep (s : State) : State :=
  if modEnable (s.ch chSweep).ev1 && swpInterval s.swp != 0 then
    if s.sweepTimer ≤ 1 then
      expiryCounter (expiryFrequency { s with sweepTimer := sweepInterval s.cfg s.swp })
    else { s with sweepTimer := s.sweepTimer - 1 }
  else s

/-- `SweepModStage` (rule R174). -/
def sweepModStage (s : State) : State :=
  if enabled s chSweep then intervalStep (sweepCheck s) else s

/-- The shutoff stage of one channel (rule R184). -/
def shutoffChannel (ch : Channel) : Channel :=
  if intEnable ch.int && intAutoShutoff ch.int then
    let t := ch.shutoffTimer - 1
    if t = 0x1F then clearEnable { ch with shutoffTimer := t } else { ch with shutoffTimer := t }
  else ch

/-- `ShutoffStage` (rule R184); the channels do not interact (assumption 17). -/
def shutoffStage (s : State) : State := { s with chan := mapChannels shutoffChannel s.chan }

/-- The value an envelope step aims at, before saturation (rules R186, R188). -/
def envelopeTarget (ch : Channel) : Int :=
  if envDir ch.ev0 then (ch.envelopeValue.toNat : Int) + 1 else (ch.envelopeValue.toNat : Int) - 1

/-- An envelope step: up or down by 1, or on saturation the reload or the freeze (rules R188, R189). -/
def envelopeStep (ch : Channel) : Channel :=
  let t := envelopeTarget ch
  if t = 16 ∨ t = -1 then
    if envRepeat ch.ev1 then { ch with envelopeValue := envInit ch.ev0 }
    else { ch with envelopeFrozen := true }
  else { ch with envelopeValue := BitVec.ofInt 4 t }

/-- The envelope stage of one channel (rules R186, R187). -/
def envelopeChannel (ch : Channel) : Channel :=
  if intEnable ch.int && envEnable ch.ev1 && !ch.envelopeFrozen then
    if ch.envelopeTimer = 0 then envelopeStep { ch with envelopeTimer := envInterval ch.ev0 }
    else { ch with envelopeTimer := ch.envelopeTimer - 1 }
  else ch

/-- `EnvelopeStage` (rule R186); the channels do not interact (assumption 17). -/
def envelopeStage (s : State) : State := { s with chan := mapChannels envelopeChannel s.chan }

/-- The envelope part of the cascade: every fourth shutoff stage (rules R170, R171). -/
def envelopeCascade (s : State) : State :=
  if s.envelopeDivider ≠ 0 then { s with envelopeDivider := s.envelopeDivider - 1 }
  else envelopeStage { s with envelopeDivider := envelopeReload }

/-- The shutoff part of the cascade: every fourth tick (rules R170, R171). -/
def shutoffCascade (s : State) : State :=
  if s.shutoffDivider ≠ 0 then { s with shutoffDivider := s.shutoffDivider - 1 }
  else envelopeCascade (shutoffStage { s with shutoffDivider := shutoffReload })

/-- `EffectsTick` (rules R170, R171, R183). -/
def effectsTick (s : State) : State :=
  shutoffCascade { sweepModStage s with modulationLock := .none }

end Sys2Proof.Machine
end

