-- ==== Sys2Proof/Machine/PostProcess.lean ====
section
/-! DEFINITION. Post-processing: scaling and DC-bias removal of a completed buffer (rules R200 to R209). -/

namespace Sys2Proof.Machine

/-- `(raw >> 4) * 95`, the raw lane read as unsigned (rule R201). -/
def scaleLane (raw : Lane) : Int := ((raw.toNat >>> scaleShift) * scaleMul : Nat)

/-- The steady-state correction, sign(dc) × ceil(|dc| / `DC_BLEND_DIV`) (rule R203). -/
def steadyCorrection (blendDiv : Nat) (dc : Int) : Int :=
  dc.sign * (((dc.natAbs + (blendDiv - 1)) / blendDiv : Nat) : Int)

/-- The correction of one frame: the steady one, or the clamping branch (rules R203, R204). -/
def dcCorrection (blendDiv : Nat) (dc al ar : Int) : Int :=
  let corr := steadyCorrection blendDiv dc
  if al - corr < dc ∨ ar - corr < dc then min al ar - dc else corr

/-- One frame and the accumulator after it (rules R200 to R207). -/
def postFrame (blendDiv : Nat) (dc : Int) (f : Frame) : Frame × Int :=
  let sl := scaleLane f.l
  let sr := scaleLane f.r
  if dc = 0 then (⟨wrap16 sl, wrap16 sr⟩, dc)
  else
    let al := sl + dc
    let ar := sr + dc
    let corr := dcCorrection blendDiv dc al ar
    (⟨wrap16 (al - corr), wrap16 (ar - corr)⟩, dc - corr)

/-- The frames of a buffer in index order, the accumulator carried along (rule R200). -/
def postFrames (blendDiv : Nat) (dc : Int) (fs : List Frame) : List Frame × Int :=
  match fs with
  | [] => ([], dc)
  | f :: rest =>
    let p := postFrame blendDiv dc f
    let q := postFrames blendDiv p.2 rest
    (p.1 :: q.1, q.2)

/-- `PostProcess(prodCursor)` (rules R200, R209). -/
def postProcess (s : State) : State :=
  let p := postFrames s.cfg.dcBlendDiv s.dcOffset (s.bufAt s.prodCursor)
  { s with buf := s.buf.set s.prodCursor p.1, dcOffset := p.2 }

end Sys2Proof.Machine
end

