-- ==== Sys2Proof/Machine/Synthesis.lean ====
section
/-! DEFINITION. Sample synthesis: frequency timers, phase accumulators, the noise LFSR, gains, the mixer, and
`Advance` (rules R140 to R158); the catch-up of a WRITE (rule R102). -/

namespace Sys2Proof.Machine

/-- One shift of the LFSR with taps at `fixedBit` and `tap` (rule R151; assumption 15). -/
def lfsrShift (fixedBit tap : Nat) (x : BitVec 15) : BitVec 15 :=
  x.shiftConcat (!(x.getLsbD fixedBit ^^ x.getLsbD tap))

/-- `ChannelTick(c)` (rules R150, R151). -/
def channelTick (c : Chan) (s : State) : State :=
  if c = chNoise then
    { s with noiseShift :=
        lfsrShift s.cfg.noiseFixedBit (noiseTapBit s.cfg (s.ch chNoise).ev1) s.noiseShift }
  else s.setPhase c (s.phase c + 1)

/-- `frequencyTimer[c] <- n`. -/
def setTimer (c : Chan) (n : Nat) (s : State) : State := s.setCh c { s.ch c with frequencyTimer := n }

/-- A channel tick and the reload of the timer from the current period (rules R142, R146). -/
def tickAndReload (c : Chan) (s : State) : State :=
  let s1 := channelTick c s
  setTimer c (period s1 c) s1

/-- The channel ticks strictly inside the rest `rem` of a sample's window, and what is left of it (rules R142,
R145). `fuel` bounds the passes; assumption 14 says why it never runs out. -/
def ticksInside (fuel : Nat) (c : Chan) (rem : Nat) (s : State) : Nat × State :=
  match fuel with
  | 0 => (rem, s)
  | n + 1 =>
    let t := (s.ch c).frequencyTimer
    if t < rem then ticksInside n c (rem - t) (tickAndReload c s) else (rem, s)

/-- `Level(c)` (rules R152, R153). -/
def level (s : State) (c : Chan) : Nat :=
  if c = chNoise then (if s.noiseShift.getLsbD 14 then 0 else s.cfg.noiseMax)
  else
    let t := (waveSel (s.ramAt c)).toNat
    if h : t < 5 then waveLevel (s.wave ⟨t, h⟩ (s.phase c)) else 0

/-- The gain of one side (rule R155). -/
def gain (e pan : BitVec 4) : Nat :=
  ((e.toNat * pan.toNat) >>> gainShift) + (if pan ≠ 0 ∧ e ≠ 0 then 1 else 0)

/-- `Gains(c)`, the left one (rule R155). -/
def gainL (s : State) (c : Chan) : Nat := gain (s.ch c).envelopeValue (panL (s.ch c).lrv)

/-- `Gains(c)`, the right one (rule R155). -/
def gainR (s : State) (c : Chan) : Nat := gain (s.ch c).envelopeValue (panR (s.ch c).lrv)

/-- The sums of a frame so far, and the state (rule R142). -/
structure Mix where
  accL : Nat
  accR : Nat
  st : State
deriving DecidableEq, Repr

/-- The rest of the window runs off the timer; a tick exactly at the window's end comes after the mix (rules
R142, R145). -/
def windowEnd (c : Chan) (rem : Nat) (s : State) : State :=
  let t := (s.ch c).frequencyTimer - rem
  if t = 0 then tickAndReload c (setTimer c t s) else setTimer c t s

/-- One channel's part of a sample: its ticks, its contribution, the end of the window (rules R142, R143, R145,
R157). -/
def stepChannel (m : Mix) (c : Chan) : Mix :=
  if gateOpen m.st c then
    let p := ticksInside (m.st.cfg.cps + 1) c m.st.cfg.cps m.st
    let lv := level p.2 c
    ⟨m.accL + lv * gainL p.2 c, m.accR + lv * gainR p.2 c, windowEnd c p.1 p.2⟩
  else m

/-- The channels in index order (rule R142). -/
def mixChannels (s : State) : Mix := ([0, 1, 2, 3, 4, 5] : List Chan).foldl stepChannel ⟨0, 0, s⟩

/-- The effects tick, when it is due (rules R142, R170). -/
def tickIfDue (s : State) : State :=
  if s.effectDivider = 0 then { effectsTick s with effectDivider := tickSamples } else s

/-- A completed buffer is post-processed and handed off (rule R142, step 5). -/
def completeBuffer (s : State) : State :=
  if s.fillPos = s.cfg.frames then { handOff (postProcess s) with fillPos := 0 } else s

/-- `ProduceSample` (rule R142). -/
def produceSample (s : State) : State :=
  let m := mixChannels (tickIfDue s)
  let s1 := storeFrame ⟨zext16 m.accL, zext16 m.accR⟩ m.st
  completeBuffer { s1 with fillPos := s1.fillPos + 1, effectDivider := s1.effectDivider - 1 }

/-- `ProduceSample` `n` times (rule R140). -/
def produceSamples (n : Nat) (s : State) : State :=
  match n with
  | 0 => s
  | k + 1 => produceSamples k (produceSample s)

/-- How many whole samples end at or before `toCycle`; none for a stamp in the past (rules R140, R141). -/
def samplesDue (toCycle : Cycle) (s : State) : Nat :=
  if toCycle < s.lastSynthesizedCycle then 0
  else (toCycle - s.lastSynthesizedCycle) / s.cfg.cps

/-- `Advance` (rules R140, R141). -/
def advance (toCycle : Cycle) (s : State) : State :=
  let n := samplesDue toCycle s
  if n = 0 then s
  else produceSamples n
    { s with lastSynthesizedCycle := s.lastSynthesizedCycle + n * s.cfg.cps }

/-- The catch-up of a WRITE at an offset (rule R102). -/
def catchUp (off : Offset) (now : Cycle) (s : State) : State :=
  if off.toNat < s.cfg.catchupThreshold then advance now s else s

end Sys2Proof.Machine
end

