-- ==== Sys2Proof/Machine/ChannelWrite.lean ====
section
/-! DEFINITION. WRITE to the channel registers, SWP and SSTOP (rules R110 to R117, R120 to R123). -/

namespace Sys2Proof.Machine

/-- What an INT[4] write resets in addition (rule R121). -/
def restartSweep (s : State) : State :=
  { s with
    sweepTimer := sweepInterval s.cfg s.swp
    modulationCounter := 0
    modulationPhase := .armed
    modulationLock := .none }

/-- What an INT write resets in addition, by channel (rules R121, R122). -/
def restartExtra (c : Chan) (s : State) : State :=
  if c = chSweep then restartSweep s else if c = chNoise then { s with noiseShift := 0 } else s

/-- `WriteINT`: the store and the restart of the channel (rules R110, R120 to R122). -/
def writeInt (c : Chan) (v : Byte) (s : State) : State :=
  let s1 := restartExtra c (s.setCh c { s.ch c with int := v })
  let s2 := (s1.setCh c { s1.ch c with shutoffTimer := intInterval v }).setPhase c 0
  setTimer c (period s2 c) s2

/-- `LRV[c] <- v` (rule R111). -/
def writeLrv (c : Chan) (v : Byte) (s : State) : State := s.setCh c { s.ch c with lrv := v }

/-- `WriteFQL` (rule R112). -/
def writeFql (c : Chan) (v : Byte) (s : State) : State :=
  let s1 := s.setCh c { s.ch c with fql := v }
  if c = chSweep then
    { s1 with
      sweepFrequency := s1.sweepFrequency.extractLsb' 8 3 ++ v
      modulationLock := if modulationEnabled s1 then .lowByte else s1.modulationLock }
  else s1

/-- `WriteFQH` (rule R113). -/
def writeFqh (c : Chan) (v : Byte) (s : State) : State :=
  let s1 := s.setCh c { s.ch c with fqh := v }
  if c = chSweep then
    { s1 with
      sweepFrequency := freqHigh v ++ s1.sweepFrequency.extractLsb' 0 8
      modulationLock := if modulationEnabled s1 then .highByte else s1.modulationLock }
  else s1

/-- `WriteEV0`: the store, the latch and the thaw (rule R114). -/
def writeEv0 (c : Chan) (v : Byte) (s : State) : State :=
  s.setCh c { s.ch c with ev0 := v, envelopeValue := envInit v, envelopeFrozen := false }

/-- `WriteEV1`; for the noise channel the LFSR is reset (rule R115). -/
def writeEv1 (c : Chan) (v : Byte) (s : State) : State :=
  let s1 := s.setCh c { s.ch c with ev1 := v }
  if c = chNoise then { s1 with noiseShift := 0 } else s1

/-- The stop action: every enable bit cleared (rule R123). -/
def stopAll (s : State) : State := { s with chan := mapChannels clearEnable s.chan }

/-- INT0 (rule R110). -/
def execInt0 (now : Cycle) (v : Byte) (s : State) : Result :=
  .next (writeInt 0 v (catchUp (regOffset 0 0) now s))

/-- INT1 (rule R110). -/
def execInt1 (now : Cycle) (v : Byte) (s : State) : Result :=
  .next (writeInt 1 v (catchUp (regOffset 1 0) now s))

/-- INT2 (rule R110). -/
def execInt2 (now : Cycle) (v : Byte) (s : State) : Result :=
  .next (writeInt 2 v (catchUp (regOffset 2 0) now s))

/-- INT3 (rule R110). -/
def execInt3 (now : Cycle) (v : Byte) (s : State) : Result :=
  .next (writeInt 3 v (catchUp (regOffset 3 0) now s))

/-- INT4 (rule R110). -/
def execInt4 (now : Cycle) (v : Byte) (s : State) : Result :=
  .next (writeInt 4 v (catchUp (regOffset 4 0) now s))

/-- INT5 (rule R110). -/
def execInt5 (now : Cycle) (v : Byte) (s : State) : Result :=
  .next (writeInt 5 v (catchUp (regOffset 5 0) now s))

/-- LRV0 (rule R111). -/
def execLrv0 (now : Cycle) (v : Byte) (s : State) : Result :=
  .next (writeLrv 0 v (catchUp (regOffset 0 1) now s))

/-- LRV1 (rule R111). -/
def execLrv1 (now : Cycle) (v : Byte) (s : State) : Result :=
  .next (writeLrv 1 v (catchUp (regOffset 1 1) now s))

/-- LRV2 (rule R111). -/
def execLrv2 (now : Cycle) (v : Byte) (s : State) : Result :=
  .next (writeLrv 2 v (catchUp (regOffset 2 1) now s))

/-- LRV3 (rule R111). -/
def execLrv3 (now : Cycle) (v : Byte) (s : State) : Result :=
  .next (writeLrv 3 v (catchUp (regOffset 3 1) now s))

/-- LRV4 (rule R111). -/
def execLrv4 (now : Cycle) (v : Byte) (s : State) : Result :=
  .next (writeLrv 4 v (catchUp (regOffset 4 1) now s))

/-- LRV5 (rule R111). -/
def execLrv5 (now : Cycle) (v : Byte) (s : State) : Result :=
  .next (writeLrv 5 v (catchUp (regOffset 5 1) now s))

/-- FQL0 (rule R112). -/
def execFql0 (now : Cycle) (v : Byte) (s : State) : Result :=
  .next (writeFql 0 v (catchUp (regOffset 0 2) now s))

/-- FQL1 (rule R112). -/
def execFql1 (now : Cycle) (v : Byte) (s : State) : Result :=
  .next (writeFql 1 v (catchUp (regOffset 1 2) now s))

/-- FQL2 (rule R112). -/
def execFql2 (now : Cycle) (v : Byte) (s : State) : Result :=
  .next (writeFql 2 v (catchUp (regOffset 2 2) now s))

/-- FQL3 (rule R112). -/
def execFql3 (now : Cycle) (v : Byte) (s : State) : Result :=
  .next (writeFql 3 v (catchUp (regOffset 3 2) now s))

/-- FQL4 (rule R112). -/
def execFql4 (now : Cycle) (v : Byte) (s : State) : Result :=
  .next (writeFql 4 v (catchUp (regOffset 4 2) now s))

/-- FQL5 (rule R112). -/
def execFql5 (now : Cycle) (v : Byte) (s : State) : Result :=
  .next (writeFql 5 v (catchUp (regOffset 5 2) now s))

/-- FQH0 (rule R113). -/
def execFqh0 (now : Cycle) (v : Byte) (s : State) : Result :=
  .next (writeFqh 0 v (catchUp (regOffset 0 3) now s))

/-- FQH1 (rule R113). -/
def execFqh1 (now : Cycle) (v : Byte) (s : State) : Result :=
  .next (writeFqh 1 v (catchUp (regOffset 1 3) now s))

/-- FQH2 (rule R113). -/
def execFqh2 (now : Cycle) (v : Byte) (s : State) : Result :=
  .next (writeFqh 2 v (catchUp (regOffset 2 3) now s))

/-- FQH3 (rule R113). -/
def execFqh3 (now : Cycle) (v : Byte) (s : State) : Result :=
  .next (writeFqh 3 v (catchUp (regOffset 3 3) now s))

/-- FQH4 (rule R113). -/
def execFqh4 (now : Cycle) (v : Byte) (s : State) : Result :=
  .next (writeFqh 4 v (catchUp (regOffset 4 3) now s))

/-- FQH5 (rule R113). -/
def execFqh5 (now : Cycle) (v : Byte) (s : State) : Result :=
  .next (writeFqh 5 v (catchUp (regOffset 5 3) now s))

/-- EV00 (rule R114). -/
def execEv00 (now : Cycle) (v : Byte) (s : State) : Result :=
  .next (writeEv0 0 v (catchUp (regOffset 0 4) now s))

/-- EV01 (rule R114). -/
def execEv01 (now : Cycle) (v : Byte) (s : State) : Result :=
  .next (writeEv0 1 v (catchUp (regOffset 1 4) now s))

/-- EV02 (rule R114). -/
def execEv02 (now : Cycle) (v : Byte) (s : State) : Result :=
  .next (writeEv0 2 v (catchUp (regOffset 2 4) now s))

/-- EV03 (rule R114). -/
def execEv03 (now : Cycle) (v : Byte) (s : State) : Result :=
  .next (writeEv0 3 v (catchUp (regOffset 3 4) now s))

/-- EV04 (rule R114). -/
def execEv04 (now : Cycle) (v : Byte) (s : State) : Result :=
  .next (writeEv0 4 v (catchUp (regOffset 4 4) now s))

/-- EV05 (rule R114). -/
def execEv05 (now : Cycle) (v : Byte) (s : State) : Result :=
  .next (writeEv0 5 v (catchUp (regOffset 5 4) now s))

/-- EV10 (rule R115). -/
def execEv10 (now : Cycle) (v : Byte) (s : State) : Result :=
  .next (writeEv1 0 v (catchUp (regOffset 0 5) now s))

/-- EV11 (rule R115). -/
def execEv11 (now : Cycle) (v : Byte) (s : State) : Result :=
  .next (writeEv1 1 v (catchUp (regOffset 1 5) now s))

/-- EV12 (rule R115). -/
def execEv12 (now : Cycle) (v : Byte) (s : State) : Result :=
  .next (writeEv1 2 v (catchUp (regOffset 2 5) now s))

/-- EV13 (rule R115). -/
def execEv13 (now : Cycle) (v : Byte) (s : State) : Result :=
  .next (writeEv1 3 v (catchUp (regOffset 3 5) now s))

/-- EV14 (rule R115). -/
def execEv14 (now : Cycle) (v : Byte) (s : State) : Result :=
  .next (writeEv1 4 v (catchUp (regOffset 4 5) now s))

/-- EV15 (rule R115). -/
def execEv15 (now : Cycle) (v : Byte) (s : State) : Result :=
  .next (writeEv1 5 v (catchUp (regOffset 5 5) now s))

/-- RAM0 (rule R116). -/
def execRam0 (now : Cycle) (v : Byte) (s : State) : Result :=
  .next ((catchUp (regOffset 0 6) now s).setRam 0 v)

/-- RAM1 (rule R116). -/
def execRam1 (now : Cycle) (v : Byte) (s : State) : Result :=
  .next ((catchUp (regOffset 1 6) now s).setRam 1 v)

/-- RAM2 (rule R116). -/
def execRam2 (now : Cycle) (v : Byte) (s : State) : Result :=
  .next ((catchUp (regOffset 2 6) now s).setRam 2 v)

/-- RAM3 (rule R116). -/
def execRam3 (now : Cycle) (v : Byte) (s : State) : Result :=
  .next ((catchUp (regOffset 3 6) now s).setRam 3 v)

/-- RAM4 (rule R116). -/
def execRam4 (now : Cycle) (v : Byte) (s : State) : Result :=
  .next ((catchUp (regOffset 4 6) now s).setRam 4 v)

/-- SWP (rule R117). -/
def execSwp (now : Cycle) (v : Byte) (s : State) : Result :=
  .next { catchUp (regOffset 4 7) now s with swp := v }

/-- SSTOP (rule R123). -/
def execSstop (now : Cycle) (v : Byte) (s : State) : Result :=
  let s1 := catchUp sstopOffset now s
  .next (if sstopStop v then stopAll s1 else s1)

end Sys2Proof.Machine
end

