-- ==== Sys2Proof/Machine/Ports.lean ====
section
/-! DEFINITION. The unencoded port operations: ADVANCE, RESET, SETMUTED, PAUSE, RESUME, CONSUME (rules R140,
R222, R230 to R232, R260). -/

namespace Sys2Proof.Machine

/-- `Reset`: every element but `muted` and `paused` (rules R260 to R263); the parameters, the operations still
to be performed and the last answer are no state of the chip (assumption 8). -/
def resetAll (s : State) : State :=
  { s with
    chan := Vector.replicate 6 Channel.reset
    ram := Vector.replicate 5 0
    swp := 0
    mem := []
    samplePhase := Vector.replicate 5 0
    sweepFrequency := 0
    sweepTimer := 0
    modulationCounter := 0
    modulationPhase := .idle
    modulationLock := .none
    noiseShift := 0
    lastSynthesizedCycle := 0
    effectDivider := s.cfg.effectDivReset
    shutoffDivider := s.cfg.shutoffDivReset
    envelopeDivider := s.cfg.envelopeDivReset
    dcOffset := s.cfg.dcReset
    buf := List.replicate s.cfg.nBuf (silence s)
    ready := List.replicate s.cfg.nBuf false
    prodCursor := 0
    fillPos := 0
    consCursor := 0 }

/-- ADVANCE (rules R140, R141). -/
def execAdvance (toCycle : Cycle) (s : State) : Result := .next (advance toCycle s)

/-- RESET (rule R260). -/
def execReset (s : State) : Result := .next (resetAll s)

/-- SETMUTED (rule R230). -/
def execSetMuted (b : Bool) (s : State) : Result := .next { s with muted := b }

/-- PAUSE (rule R231). -/
def execPause (s : State) : Result := .next { s with paused := true }

/-- RESUME (rule R232). -/
def execResume (s : State) : Result := .next { s with paused := false }

/-- CONSUME (rule R222). -/
def execConsume (s : State) : Result := .next (consume s)

end Sys2Proof.Machine
end

