-- ==== Sys2Proof/Machine/Reserved.lean ====
section
/-! DEFINITION. WRITE to the reserved rows: ignored completely for an odd or half-odd address, otherwise the
catch-up and nothing else (rules R90, R101, R109, R118, R119). -/

namespace Sys2Proof.Machine

/-- RSVD_ODD (rule R101). -/
def execRsvdOdd (_now : Cycle) (_off : Offset) (_v : Byte) (s : State) : Result := .next s

/-- RSVD_A1 (rule R101). -/
def execRsvdA1 (_now : Cycle) (_off : Offset) (_v : Byte) (s : State) : Result := .next s

/-- RSVD_TBL (rule R109). -/
def execRsvdTbl (now : Cycle) (off : Offset) (_v : Byte) (s : State) : Result :=
  .next (catchUp off now s)

/-- RSVD_CHREG_a (rule R118). -/
def execRsvdChregA (now : Cycle) (off : Offset) (_v : Byte) (s : State) : Result :=
  .next (catchUp off now s)

/-- RSVD_CHREG_b (rule R118). -/
def execRsvdChregB (now : Cycle) (off : Offset) (_v : Byte) (s : State) : Result :=
  .next (catchUp off now s)

/-- RSVD_SWPSLOT_a (rule R118). -/
def execRsvdSwpslotA (now : Cycle) (off : Offset) (_v : Byte) (s : State) : Result :=
  .next (catchUp off now s)

/-- RSVD_SWPSLOT_b (rule R118). -/
def execRsvdSwpslotB (now : Cycle) (off : Offset) (_v : Byte) (s : State) : Result :=
  .next (catchUp off now s)

/-- RSVD_RAM5 (rule R118). -/
def execRsvdRam5 (now : Cycle) (off : Offset) (_v : Byte) (s : State) : Result :=
  .next (catchUp off now s)

/-- RSVD_HIGH_a (rule R119). -/
def execRsvdHighA (now : Cycle) (off : Offset) (_v : Byte) (s : State) : Result :=
  .next (catchUp off now s)

/-- RSVD_HIGH_b (rule R119). -/
def execRsvdHighB (now : Cycle) (off : Offset) (_v : Byte) (s : State) : Result :=
  .next (catchUp off now s)

/-- RSVD_HIGH_c (rule R119). -/
def execRsvdHighC (now : Cycle) (off : Offset) (_v : Byte) (s : State) : Result :=
  .next (catchUp off now s)

/-- RSVD_HIGH_d (rule R119). -/
def execRsvdHighD (now : Cycle) (off : Offset) (_v : Byte) (s : State) : Result :=
  .next (catchUp off now s)

/-- RSVD_HIGH_e (rule R119). -/
def execRsvdHighE (now : Cycle) (off : Offset) (_v : Byte) (s : State) : Result :=
  .next (catchUp off now s)

/-- RSVD_HIGH_f (rule R119). -/
def execRsvdHighF (now : Cycle) (off : Offset) (_v : Byte) (s : State) : Result :=
  .next (catchUp off now s)

end Sys2Proof.Machine
end

