-- ==== Sys2Proof/Machine/TableWrite.lean ====
section
/-! DEFINITION. WRITE to the tables: WAVE0 to WAVE4 and MODTBL (rules R104 to R108). -/

namespace Sys2Proof.Machine

/-- A WRITE to entry `i` of table TABLE: the catch-up, then the lock and the store (rules R102, R104 to R108). -/
def tableWrite (table : Nat) (now : Cycle) (i : Entry) (v : Byte) (s : State) : State :=
  writeTable (tableOffset table i) v (catchUp (tableOffset table i) now s)

/-- WAVE0 (rule R106). -/
def execWave0 (now : Cycle) (i : Entry) (v : Byte) (s : State) : Result :=
  .next (tableWrite 0 now i v s)

/-- WAVE1 (rule R106). -/
def execWave1 (now : Cycle) (i : Entry) (v : Byte) (s : State) : Result :=
  .next (tableWrite 1 now i v s)

/-- WAVE2 (rule R106). -/
def execWave2 (now : Cycle) (i : Entry) (v : Byte) (s : State) : Result :=
  .next (tableWrite 2 now i v s)

/-- WAVE3 (rule R106). -/
def execWave3 (now : Cycle) (i : Entry) (v : Byte) (s : State) : Result :=
  .next (tableWrite 3 now i v s)

/-- WAVE4 (rule R107). -/
def execWave4 (now : Cycle) (i : Entry) (v : Byte) (s : State) : Result :=
  .next (tableWrite 4 now i v s)

/-- MODTBL (rule R108). -/
def execModtbl (now : Cycle) (i : Entry) (v : Byte) (s : State) : Result :=
  .next (tableWrite 5 now i v s)

end Sys2Proof.Machine
end

