-- ==== Sys2Proof/Machine/Dispatch.lean ====
section
/-! DEFINITION. One arm per instruction. -/

namespace Sys2Proof.Machine

/-- What an instruction does. -/
def exec (i : Instr) (s : State) : Host.Outcome State Fault Refusal :=
  match i with
  | .wave0 now e v => Sys2Proof.Machine.execWave0 now e v s
  | .wave1 now e v => Sys2Proof.Machine.execWave1 now e v s
  | .wave2 now e v => Sys2Proof.Machine.execWave2 now e v s
  | .wave3 now e v => Sys2Proof.Machine.execWave3 now e v s
  | .wave4 now e v => Sys2Proof.Machine.execWave4 now e v s
  | .modtbl now e v => Sys2Proof.Machine.execModtbl now e v s
  | .int0 now v => Sys2Proof.Machine.execInt0 now v s
  | .int1 now v => Sys2Proof.Machine.execInt1 now v s
  | .int2 now v => Sys2Proof.Machine.execInt2 now v s
  | .int3 now v => Sys2Proof.Machine.execInt3 now v s
  | .int4 now v => Sys2Proof.Machine.execInt4 now v s
  | .int5 now v => Sys2Proof.Machine.execInt5 now v s
  | .lrv0 now v => Sys2Proof.Machine.execLrv0 now v s
  | .lrv1 now v => Sys2Proof.Machine.execLrv1 now v s
  | .lrv2 now v => Sys2Proof.Machine.execLrv2 now v s
  | .lrv3 now v => Sys2Proof.Machine.execLrv3 now v s
  | .lrv4 now v => Sys2Proof.Machine.execLrv4 now v s
  | .lrv5 now v => Sys2Proof.Machine.execLrv5 now v s
  | .fql0 now v => Sys2Proof.Machine.execFql0 now v s
  | .fql1 now v => Sys2Proof.Machine.execFql1 now v s
  | .fql2 now v => Sys2Proof.Machine.execFql2 now v s
  | .fql3 now v => Sys2Proof.Machine.execFql3 now v s
  | .fql4 now v => Sys2Proof.Machine.execFql4 now v s
  | .fql5 now v => Sys2Proof.Machine.execFql5 now v s
  | .fqh0 now v => Sys2Proof.Machine.execFqh0 now v s
  | .fqh1 now v => Sys2Proof.Machine.execFqh1 now v s
  | .fqh2 now v => Sys2Proof.Machine.execFqh2 now v s
  | .fqh3 now v => Sys2Proof.Machine.execFqh3 now v s
  | .fqh4 now v => Sys2Proof.Machine.execFqh4 now v s
  | .fqh5 now v => Sys2Proof.Machine.execFqh5 now v s
  | .ev00 now v => Sys2Proof.Machine.execEv00 now v s
  | .ev01 now v => Sys2Proof.Machine.execEv01 now v s
  | .ev02 now v => Sys2Proof.Machine.execEv02 now v s
  | .ev03 now v => Sys2Proof.Machine.execEv03 now v s
  | .ev04 now v => Sys2Proof.Machine.execEv04 now v s
  | .ev05 now v => Sys2Proof.Machine.execEv05 now v s
  | .ev10 now v => Sys2Proof.Machine.execEv10 now v s
  | .ev11 now v => Sys2Proof.Machine.execEv11 now v s
  | .ev12 now v => Sys2Proof.Machine.execEv12 now v s
  | .ev13 now v => Sys2Proof.Machine.execEv13 now v s
  | .ev14 now v => Sys2Proof.Machine.execEv14 now v s
  | .ev15 now v => Sys2Proof.Machine.execEv15 now v s
  | .ram0 now v => Sys2Proof.Machine.execRam0 now v s
  | .ram1 now v => Sys2Proof.Machine.execRam1 now v s
  | .ram2 now v => Sys2Proof.Machine.execRam2 now v s
  | .ram3 now v => Sys2Proof.Machine.execRam3 now v s
  | .ram4 now v => Sys2Proof.Machine.execRam4 now v s
  | .swp now v => Sys2Proof.Machine.execSwp now v s
  | .sstop now v => Sys2Proof.Machine.execSstop now v s
  | .rsvdOdd now off v => Sys2Proof.Machine.execRsvdOdd now off v s
  | .rsvdA1 now off v => Sys2Proof.Machine.execRsvdA1 now off v s
  | .rsvdTbl now off v => Sys2Proof.Machine.execRsvdTbl now off v s
  | .rsvdChregA now off v => Sys2Proof.Machine.execRsvdChregA now off v s
  | .rsvdChregB now off v => Sys2Proof.Machine.execRsvdChregB now off v s
  | .rsvdSwpslotA now off v => Sys2Proof.Machine.execRsvdSwpslotA now off v s
  | .rsvdSwpslotB now off v => Sys2Proof.Machine.execRsvdSwpslotB now off v s
  | .rsvdRam5 now off v => Sys2Proof.Machine.execRsvdRam5 now off v s
  | .rsvdHighA now off v => Sys2Proof.Machine.execRsvdHighA now off v s
  | .rsvdHighB now off v => Sys2Proof.Machine.execRsvdHighB now off v s
  | .rsvdHighC now off v => Sys2Proof.Machine.execRsvdHighC now off v s
  | .rsvdHighD now off v => Sys2Proof.Machine.execRsvdHighD now off v s
  | .rsvdHighE now off v => Sys2Proof.Machine.execRsvdHighE now off v s
  | .rsvdHighF now off v => Sys2Proof.Machine.execRsvdHighF now off v s
  | .advance toCycle => Sys2Proof.Machine.execAdvance toCycle s
  | .reset => Sys2Proof.Machine.execReset s
  | .setMuted b => Sys2Proof.Machine.execSetMuted b s
  | .pause => Sys2Proof.Machine.execPause s
  | .resume => Sys2Proof.Machine.execResume s
  | .consume => Sys2Proof.Machine.execConsume s

end Sys2Proof.Machine
end

