-- ==== Sys2Proof/Machine/Step.lean ====
section
/-! DEFINITION. One step of the machine: the next port operation is decoded and performed. -/

namespace Sys2Proof.Machine

/-- One step: a machine whose parameters break their constraints is refused (item U12; assumption 6); with no
operation pending SND does nothing (rules R13, R233; assumption 2); otherwise the first pending operation is
taken off, decoded through the machine's address window and performed (rules R11, R61, R70, R74; assumption 1); an
operation with a stamp of more than `CYCLE_BITS` bits is refused (item U9; assumption 4). -/
def step (s : State) : Host.Outcome State Fault Refusal :=
  if s.cfg.Valid then
    match s.pending with
    | [] => .next s
    | op :: rest =>
      if op.stamp < 2 ^ s.cfg.cycleBits then exec (decode (op.inWindow s.cfg.windowMask)) { s with pending := rest }
      else .refused .stampOutOfRange
  else .refused .invalidParameters

/-- The state with the write transaction of `nbits` bits `w` as the next operation (assumptions 1, 13); with the default
window and width of a stamp the next step performs exactly it. -/
def State.withFetchWord (s : State) (nbits w : Nat) : State :=
  { s with pending := .write (tableTransaction nbits w) :: s.pending }

end Sys2Proof.Machine
end

