-- ==== Sys2Proof/Safety.lean ====
section
/-! DEFINITION. The terms the claims are stated in: the register instructions by channel, the parts of the state
that an operation leaves alone, the ring as a queue, and the invariants of rules R44, R57, R69, R151 and R160. -/

namespace Sys2Proof.Machine

/-- INTc. -/
def intOf (c : Chan) (now : Cycle) (v : Byte) : Instr :=
  match c.val with
  | 0 => .int0 now v
  | 1 => .int1 now v
  | 2 => .int2 now v
  | 3 => .int3 now v
  | 4 => .int4 now v
  | _ => .int5 now v

/-- LRVc. -/
def lrvOf (c : Chan) (now : Cycle) (v : Byte) : Instr :=
  match c.val with
  | 0 => .lrv0 now v
  | 1 => .lrv1 now v
  | 2 => .lrv2 now v
  | 3 => .lrv3 now v
  | 4 => .lrv4 now v
  | _ => .lrv5 now v

/-- FQLc. -/
def fqlOf (c : Chan) (now : Cycle) (v : Byte) : Instr :=
  match c.val with
  | 0 => .fql0 now v
  | 1 => .fql1 now v
  | 2 => .fql2 now v
  | 3 => .fql3 now v
  | 4 => .fql4 now v
  | _ => .fql5 now v

/-- FQHc. -/
def fqhOf (c : Chan) (now : Cycle) (v : Byte) : Instr :=
  match c.val with
  | 0 => .fqh0 now v
  | 1 => .fqh1 now v
  | 2 => .fqh2 now v
  | 3 => .fqh3 now v
  | 4 => .fqh4 now v
  | _ => .fqh5 now v

/-- EV0c. -/
def ev0Of (c : Chan) (now : Cycle) (v : Byte) : Instr :=
  match c.val with
  | 0 => .ev00 now v
  | 1 => .ev01 now v
  | 2 => .ev02 now v
  | 3 => .ev03 now v
  | 4 => .ev04 now v
  | _ => .ev05 now v

/-- EV1c. -/
def ev1Of (c : Chan) (now : Cycle) (v : Byte) : Instr :=
  match c.val with
  | 0 => .ev10 now v
  | 1 => .ev11 now v
  | 2 => .ev12 now v
  | 3 => .ev13 now v
  | 4 => .ev14 now v
  | _ => .ev15 now v

/-- RAMc, c in 0..4. -/
def ramOf (c : WaveChan) (now : Cycle) (v : Byte) : Instr :=
  match c.val with
  | 0 => .ram0 now v
  | 1 => .ram1 now v
  | 2 => .ram2 now v
  | 3 => .ram3 now v
  | _ => .ram4 now v

/-- WAVEt, t in 0..4. -/
def waveOf (t : WaveChan) (now : Cycle) (i : Entry) (v : Byte) : Instr :=
  match t.val with
  | 0 => .wave0 now i v
  | 1 => .wave1 now i v
  | 2 => .wave2 now i v
  | 3 => .wave3 now i v
  | _ => .wave4 now i v

/-- The bytes of a channel that only a WRITE or RESET changes: its registers, INT without the enable bit that
the hardware clears by itself (rules R20, R21). -/
structure ChannelRegs where
  intRest : BitVec 7
  lrv : Byte
  fql : Byte
  fqh : Byte
  ev0 : Byte
  ev1 : Byte
deriving DecidableEq, Repr

/-- `ChannelRegs` of a channel. -/
def channelRegs (ch : Channel) : ChannelRegs :=
  ⟨ch.int.extractLsb' 0 7, ch.lrv, ch.fql, ch.fqh, ch.ev0, ch.ev1⟩

/-- What synthesis reads and never writes (rules R20, R161): the registers and tables, the parameters, the
consumer's cursor and the control flags, and the model's own two fields. -/
structure Settings where
  cfg : Params
  regs : Vector ChannelRegs 6
  ram : Vector Byte 5
  swp : Byte
  mem : Memory
  consCursor : Nat
  muted : Bool
  paused : Bool
  pending : List PortOp
  returned : Option (List Frame)
deriving DecidableEq, Repr

/-- `Settings` of a state. -/
def settings (s : State) : Settings :=
  ⟨s.cfg, s.chan.map channelRegs, s.ram, s.swp, s.mem, s.consCursor, s.muted, s.paused, s.pending, s.returned⟩

/-- What a WRITE changes by its catch-up alone (rules R35, R124): the time base, the dividers, the envelope
timers, the DC accumulator, the ring and the control flags, and the model's own fields. -/
structure Progress where
  cfg : Params
  lastSynthesizedCycle : Cycle
  effectDivider : Nat
  shutoffDivider : Nat
  envelopeDivider : Nat
  envelopeTimers : Vector (BitVec 3) 6
  dcOffset : Int
  buf : List (List Frame)
  ready : List Bool
  prodCursor : Nat
  fillPos : Nat
  consCursor : Nat
  muted : Bool
  paused : Bool
  pending : List PortOp
  returned : Option (List Frame)
deriving DecidableEq, Repr

/-- `Progress` of a state. -/
def progress (s : State) : Progress :=
  ⟨s.cfg, s.lastSynthesizedCycle, s.effectDivider, s.shutoffDivider, s.envelopeDivider,
    s.chan.map Channel.envelopeTimer, s.dcOffset, s.buf, s.ready, s.prodCursor, s.fillPos, s.consCursor,
    s.muted, s.paused, s.pending, s.returned⟩

/-- The number of buffers handed off and not yet consumed, by the cursors (rule R57 item d). -/
def queueLength (s : State) : Nat := (s.prodCursor + s.cfg.nBuf - s.consCursor) % s.cfg.nBuf

/-- The buffers handed off and not yet consumed, oldest first (rules R57, R227). -/
def ringQueue (s : State) : List (List Frame) :=
  (List.range (queueLength s)).map fun j => s.bufAt ((s.consCursor + j) % s.cfg.nBuf)

/-- The shape of the ring (rules R49 to R52, R57 item e). -/
structure RingShape (s : State) : Prop where
  bufs : s.buf.length = s.cfg.nBuf
  frames : ∀ b ∈ s.buf, b.length = s.cfg.frames
  flags : s.ready.length = s.cfg.nBuf
  prod : s.prodCursor < s.cfg.nBuf
  cons : s.consCursor < s.cfg.nBuf
  fill : s.fillPos < s.cfg.frames

/-- The ready buffers are exactly those from the consumer's cursor up to the producer's (rule R57 item d). -/
def RingOwned (s : State) : Prop :=
  ∀ k, k < s.cfg.nBuf →
    (s.readyAt k = true ↔ (k + s.cfg.nBuf - s.consCursor) % s.cfg.nBuf < queueLength s)

/-- The longest period of a channel (rules R33, R146). -/
def maxPeriod (p : Params) (c : Chan) : Nat :=
  freqLimit * (if c = chNoise then p.periodMultNoise else p.periodMultWave)

/-- Every counter is within the range its rule gives (rules R33, R39, R44 to R48, R57 item e). -/
structure Ranges (s : State) : Prop where
  clock : s.lastSynthesizedCycle < 2 ^ s.cfg.cycleBits
  effect : s.effectDivider ≤ tickSamples
  shutoff : s.shutoffDivider ≤ shutoffReload
  envelope : s.envelopeDivider ≤ envelopeReload
  sweep : s.sweepTimer ≤ 7 * max s.cfg.sweepClk0 s.cfg.sweepClk1
  timer : ∀ c, (s.ch c).frequencyTimer ≤ maxPeriod s.cfg c
  dcLow : -32768 ≤ s.dcOffset
  dcHigh : s.dcOffset ≤ 32767

/-- The tables' memory is canonical and lists only offsets of the six tables (rules R30, R31, R82). -/
def TablesCanonical (s : State) : Prop :=
  Memory.wf s.mem = true ∧ ∀ p ∈ s.mem, p.1 < 0x300 ∧ p.1 % 4 = 0

/-- What holds in every state reachable from RESET (rule R57). -/
structure Inv (s : State) : Prop where
  valid : s.cfg.Valid
  shape : RingShape s
  owned : RingOwned s
  ranges : Ranges s
  timers : ∀ c, enabled s c = true → 1 ≤ (s.ch c).frequencyTimer
  settled : s.cfg.dcReset = 0 → s.dcOffset = 0
  tables : TablesCanonical s

/-- `n` samples have been produced since RESET, as the time base, the fill position and the effects divider say
(rules R44, R45, R51). -/
def SamplesCounted (s : State) (n : Nat) : Prop :=
  s.lastSynthesizedCycle = s.cfg.cps * n ∧ s.fillPos = n % s.cfg.frames ∧
    (s.effectDivider + n) % tickSamples = s.cfg.effectDivReset % tickSamples

/-- Not all of the LFSR's bits up to the higher of its two feedback bits are 1 (rules R43, R151). -/
def NoiseAlive (s : State) : Prop :=
  ∃ b, b ≤ max s.cfg.noiseFixedBit (noiseTapBit s.cfg (s.ch chNoise).ev1) ∧ s.noiseShift.getLsbD b = false

/-- No channel is enabled, the DC filter is settled, and all audio in the ring or last returned is silence (rule
R160). -/
structure Silent (s : State) : Prop where
  disabled : ∀ c, enabled s c = false
  settled : s.dcOffset = 0
  ring : ∀ b ∈ s.buf, ∀ f ∈ b, f = Frame.zero
  out : ∀ fs, s.returned = some fs → ∀ f ∈ fs, f = Frame.zero

end Sys2Proof.Machine
end

