-- ==== Sys2Proof/Certificates/Slice0/Obligations.lean ====
section
/-! DEFINITION. The statements about SND that are to be proved. A statement about a WRITE compares the state
after it with `catchUp off now s`, the state its forced catch-up leaves (rule R102); what a catch-up can itself
change is stated by `AdvanceKeepsSettings`. -/

open Sys2Proof Sys2Proof.Machine

/-! ### Encoding -/

/-- Decoding the encoding of a well-formed instruction gives it back (rules R82 to R85, R89). -/
def Obligations.DecodeOfEncodeIsTheInstruction : Prop :=
  ∀ i : Instr, i.wellFormed = true → decode (encode i) = i

/-- What a transaction decodes to is well formed, and encoding it gives the transaction with the base address in
the ignored address bits and zeros in the ignored high byte of the value (rules R61, R64, R103; the base and the
zeros are the model's choice, assumption 12). -/
def Obligations.DecodingDropsOnlyIgnoredBits : Prop :=
  ∀ t : WriteTransaction,
    (decode (.write t)).wellFormed = true ∧
    encode (decode (.write t)) =
      .write { now := t.now
               address := windowBase + (t.address.extractLsb' 0 11).zeroExtend 32
               value := (t.value.extractLsb' 0 8).zeroExtend 16 }

/-- The 63 encoded rows of the opcode table: every offset is selected by exactly one of them, and the instruction a
transaction decodes to is the one of that row (rules R87, R88; the number of mapped rows, 49, is the reading of
assumption 19). -/
def Obligations.EveryOffsetSelectsOneRow : Prop :=
  opcodeRows.length = 63 ∧
  (∀ off : Offset, (opcodeRows.filter fun r => r.selects off).length = 1) ∧
  ∀ t : WriteTransaction, ∃ r ∈ opcodeRows,
    r.selects (t.address.extractLsb' 0 11) = true ∧ (decode (.write t)).row = some r

/-- The worked example of rule R95, and one word each of the other families (rules R82 to R85). -/
def Obligations.WrittenOutWordsDecode : Prop :=
  ∀ now : Cycle,
    decode (.write ⟨now, 0x01000480, 0x00A3⟩) = .int2 now 0xA3 ∧
    intEnable 0xA3 = true ∧ (0xA3 : Byte).getLsbD 6 = false ∧ intAutoShutoff 0xA3 = true ∧ intInterval 0xA3 = 3 ∧
    decode (.write ⟨now, 0x0100010C, 0x12FF⟩) = .wave2 now 3 0xFF ∧
    decode (.write ⟨now, 0x010002FC, 0x0005⟩) = .modtbl now 31 0x05 ∧
    decode (.write ⟨now, 0xFFFFFD1C, 0x001A⟩) = .swp now 0x1A ∧
    decode (.write ⟨now, 0x01000580, 0x0001⟩) = .sstop now 0x01 ∧
    decode (.write ⟨now, 0x01000558, 0x0003⟩) = .rsvdRam5 now 0x558 0x03

/-! ### Steps -/

/-- A step takes the first pending operation off, decodes it through the address window, which with the default mask is
plain decoding, and performs it; with none pending it changes nothing; a machine with bad parameters is refused, and so
is a stamp of more than `CYCLE_BITS` bits (the queue, the idle step and the two refusals are the model's choices,
assumptions 1, 2, 4 and 6; the window, assumption 20). -/
def Obligations.StepRunsTheDecodedOperation : Prop :=
  (∀ s : State,
    (s.cfg.Valid → ∀ op rest, s.pending = op :: rest →
      (op.stamp < 2 ^ s.cfg.cycleBits →
        step s = exec (decode (op.inWindow s.cfg.windowMask)) { s with pending := rest }) ∧
      (op.stamp < 2 ^ s.cfg.cycleBits → s.cfg.windowMask = 0x7FF →
        step s = exec (decode op) { s with pending := rest }) ∧
      (2 ^ s.cfg.cycleBits ≤ op.stamp → step s = .refused .stampOutOfRange)) ∧
    (s.cfg.Valid → s.pending = [] → step s = .next s) ∧
    (¬ s.cfg.Valid → step s = .refused .invalidParameters)) ∧
  ∀ (t : WriteTransaction) (mask : Offset), ∃ u : WriteTransaction,
    (PortOp.write t).inWindow mask = .write u ∧ u.now = t.now ∧ u.value = t.value ∧
    u.address.extractLsb' 0 11 = t.address.extractLsb' 0 11 &&& mask

/-- Every instruction, in every state and with every operand, answers a next state (rule R240), which has the
same parameters and the same operations still to perform (the model's fields, assumptions 1 and 3). -/
def Obligations.EveryInstructionCompletes : Prop :=
  ∀ (i : Instr) (s : State), ∃ t, exec i s = .next t ∧ t.cfg = s.cfg ∧ t.pending = s.pending

/-! ### WRITE -/

/-- A transaction with address bit 0 or bit 1 set does nothing at all (rule R101). -/
def Obligations.UnalignedWriteDoesNothing : Prop :=
  ∀ (t : WriteTransaction) (s : State),
    (t.address.getLsbD 0 = true ∨ (t.address.getLsbD 0 = false ∧ t.address.getLsbD 1 = true)) →
    exec (decode (.write t)) s = .next s

/-- An aligned transaction to an unmapped offset performs its catch-up and stores nothing (rules R109, R118,
R119). -/
def Obligations.UnmappedWriteOnlyCatchesUp : Prop :=
  ∀ (t : WriteTransaction) (s : State) (off : Nat),
    off = (t.address.extractLsb' 0 11).toNat → off % 4 = 0 →
    ((0x300 ≤ off ∧ off ≤ 0x3FC) ∨
     (0x400 ≤ off ∧ off < 0x580 ∧ 0x20 ≤ off % 0x40) ∨
     (off = 0x41C ∨ off = 0x45C ∨ off = 0x49C ∨ off = 0x4DC ∨ off = 0x55C) ∨
     off = 0x558 ∨ 0x584 ≤ off) →
    exec (decode (.write t)) s = .next (catchUp (t.address.extractLsb' 0 11) t.now s)

/-- Every aligned transaction, rejected and unmapped ones included, catches up to its stamp when its offset is below
`CATCHUP_THRESHOLD` and skips the catch-up when it is not; beyond that it changes no time base, divider, envelope
timer, DC accumulator, ring or control flag. The catch-up is an ADVANCE to the stamp (rules R102, R124). -/
def Obligations.AlignedWriteProgressIsItsCatchUp : Prop :=
  (∀ (t : WriteTransaction) (s : State) (off : Nat),
    off = (t.address.extractLsb' 0 11).toNat → t.address.getLsbD 0 = false → t.address.getLsbD 1 = false →
    ∃ u, exec (decode (.write t)) s = .next u ∧
      (off < s.cfg.catchupThreshold → progress u = progress (advance t.now s)) ∧
      (s.cfg.catchupThreshold ≤ off → progress u = progress s) ∧
      (s.cfg.catchupThreshold = 0x800 → progress u = progress (advance t.now s))) ∧
  ∀ (off : Offset) (now : Cycle) (s : State), ∃ a, exec (.advance now) s = .next a ∧
    (off.toNat < s.cfg.catchupThreshold → catchUp off now s = a) ∧
    (s.cfg.catchupThreshold ≤ off.toNat → catchUp off now s = s)

/-- Two transactions with the same stamp, offset and low value byte do the same; in a step, two with the same stamp,
the same bits of `WINDOW_MASK` and the same low value byte do (rules R61, R103; the mask as a parameter, assumption
20). -/
def Obligations.IgnoredBitsHaveNoEffect : Prop :=
  (∀ (t u : WriteTransaction) (s : State),
    t.now = u.now → (∀ k, k < 11 → t.address.getLsbD k = u.address.getLsbD k) →
    (∀ k, k < 8 → t.value.getLsbD k = u.value.getLsbD k) →
    exec (decode (.write t)) s = exec (decode (.write u)) s) ∧
  ∀ (t u : WriteTransaction) (s : State) (rest : List PortOp),
    t.now = u.now →
    (∀ k, k < 11 → s.cfg.windowMask.getLsbD k = true → t.address.getLsbD k = u.address.getLsbD k) →
    (∀ k, k < 8 → t.value.getLsbD k = u.value.getLsbD k) →
    step { s with pending := .write t :: rest } = step { s with pending := .write u :: rest }

/-- WAVE0..WAVE4 store `v` in entry `i` unless the lock rejects the write: within the wave class while channel 5 is
enabled, in its lower half while any wave channel is, after the catch-up; with the default bounds the lower half is
tables 0..3. A rejected write does nothing more (rules R104 to R107). The lock and the store at other bounds than the
defaults are the model's choice, assumption 20. -/
def Obligations.WaveWriteStoresUnlessLocked : Prop :=
  ∀ (w : WaveChan) (now : Cycle) (i : Entry) (v : Byte) (s u : State) (off : Nat) (locked : Prop),
    off = 0x80 * w.val + 4 * i.toNat → u = catchUp (BitVec.ofNat 11 off) now s → Memory.wf u.mem = true →
    (locked ↔ off < s.cfg.waveRegionEnd ∧
      (enabled u 5 = true ∨ (off < s.cfg.waveLockSplit ∧ ∃ c : Chan, c.val ≤ 4 ∧ enabled u c = true))) →
    (s.cfg.waveRegionEnd = 0x400 → s.cfg.waveLockSplit = 0x200 →
      (locked ↔ enabled u 5 = true ∨ (w.val ≤ 3 ∧ ∃ c : Chan, c.val ≤ 4 ∧ enabled u c = true))) ∧
    ∃ t, exec (waveOf w now i v) s = .next t ∧
      (locked → t = u) ∧
      (¬ locked →
        t.wave w i = v ∧
        (∀ w' i', (w', i') ≠ (w, i) → t.wave w' i' = u.wave w' i') ∧
        (∀ i', t.mod i' = u.mod i') ∧
        { t with mem := u.mem } = u)

/-- MODTBL stores `v` in entry `i` unless the lock rejects the write after the catch-up; with the default bounds that
is while channel 5 is enabled, and no wave channel locks it (rules R104, R105, R108). The lock and the store at other
bounds than the defaults are the model's choice, assumption 20. -/
def Obligations.ModulationWriteStoresUnlessLocked : Prop :=
  ∀ (now : Cycle) (i : Entry) (v : Byte) (s u : State) (off : Nat) (locked : Prop),
    off = 0x280 + 4 * i.toNat → u = catchUp (BitVec.ofNat 11 off) now s → Memory.wf u.mem = true →
    (locked ↔ off < s.cfg.waveRegionEnd ∧
      (enabled u 5 = true ∨ (off < s.cfg.waveLockSplit ∧ ∃ c : Chan, c.val ≤ 4 ∧ enabled u c = true))) →
    (s.cfg.waveRegionEnd = 0x400 → s.cfg.waveLockSplit = 0x200 → (locked ↔ enabled u 5 = true)) ∧
    ∃ t, exec (.modtbl now i v) s = .next t ∧
      (locked → t = u) ∧
      (¬ locked →
        t.mod i = v ∧ (∀ i', i' ≠ i → t.mod i' = u.mod i') ∧
        (∀ w' i', t.wave w' i' = u.wave w' i') ∧
        { t with mem := u.mem } = u)

/-- INTc stores `v` and restarts the channel, whatever the enable bits were and are (rules R110, R120 to R122);
it leaves the envelope and every other channel alone (rule R124). -/
def Obligations.IntWriteRestartsTheChannel : Prop :=
  ∀ (c : Chan) (now : Cycle) (v : Byte) (s u : State),
    u = catchUp (BitVec.ofNat 11 (0x400 + 0x40 * c.val)) now s →
    ∃ t, exec (intOf c now v) s = .next t ∧
      t.ch c = { u.ch c with
        int := v
        shutoffTimer := BitVec.ofNat 5 v.toNat
        frequencyTimer :=
          if c.val = 4 then (2048 - u.sweepFrequency.toNat) * u.cfg.periodMultWave
          else (2048 - (256 * ((u.ch c).fqh.toNat % 8) + (u.ch c).fql.toNat)) *
            (if c.val = 5 then u.cfg.periodMultNoise else u.cfg.periodMultWave) } ∧
      (∀ d, d ≠ c → t.ch d = u.ch d ∧ t.phase d = u.phase d) ∧
      (c.val ≤ 4 → t.phase c = 0) ∧
      (c.val = 4 →
        t.sweepTimer = (u.swp.toNat / 16 % 8) * (if u.swp.toNat < 128 then u.cfg.sweepClk0 else u.cfg.sweepClk1) ∧
        t.modulationCounter = 0 ∧ t.modulationPhase = .armed ∧ t.modulationLock = .none) ∧
      (c.val ≠ 4 →
        t.sweepTimer = u.sweepTimer ∧ t.modulationCounter = u.modulationCounter ∧
        t.modulationPhase = u.modulationPhase ∧ t.modulationLock = u.modulationLock) ∧
      t.noiseShift = (if c.val = 5 then 0 else u.noiseShift) ∧
      { t with
        chan := u.chan, samplePhase := u.samplePhase, sweepTimer := u.sweepTimer
        modulationCounter := u.modulationCounter, modulationPhase := u.modulationPhase
        modulationLock := u.modulationLock, noiseShift := u.noiseShift } = u

/-- LRVc stores `v` and changes nothing else; the gains read its nibbles at once, left from bits 7:4 and right
from bits 3:0, and a zero nibble silences its side without closing the gate (rule R111). -/
def Obligations.LrvWriteStoresThePan : Prop :=
  ∀ (c : Chan) (now : Cycle) (v : Byte) (s u : State),
    u = catchUp (BitVec.ofNat 11 (0x404 + 0x40 * c.val)) now s →
    ∃ t, exec (lrvOf c now v) s = .next t ∧
      t.ch c = { u.ch c with lrv := v } ∧ (∀ d, d ≠ c → t.ch d = u.ch d) ∧ { t with chan := u.chan } = u ∧
      gateOpen t c = gateOpen u c ∧
      gainL t c = gain (u.ch c).envelopeValue (BitVec.ofNat 4 (v.toNat / 16)) ∧
      gainR t c = gain (u.ch c).envelopeValue (BitVec.ofNat 4 (v.toNat % 16)) ∧
      (v.toNat / 16 = 0 → gainL t c = 0) ∧ (v.toNat % 16 = 0 → gainR t c = 0)

/-- FQLc stores `v`; for channel 4 it also replaces the low byte of `sweepFrequency`, and records `lowByte` when
modulation is enabled; no timer is reloaded (rule R112). -/
def Obligations.FqlWriteStoresTheLowByte : Prop :=
  ∀ (c : Chan) (now : Cycle) (v : Byte) (s u : State),
    u = catchUp (BitVec.ofNat 11 (0x408 + 0x40 * c.val)) now s →
    ∃ t, exec (fqlOf c now v) s = .next t ∧
      t.ch c = { u.ch c with fql := v } ∧ (∀ d, d ≠ c → t.ch d = u.ch d) ∧
      (c.val ≠ 4 → { t with chan := u.chan } = u) ∧
      (c.val = 4 →
        t.sweepFrequency.toNat = 256 * (u.sweepFrequency.toNat / 256) + v.toNat ∧
        t.modulationLock =
          (if (u.ch 4).ev1.getLsbD 6 = true ∧ (u.ch 4).ev1.getLsbD 4 = true then .lowByte else u.modulationLock) ∧
        { t with
          chan := u.chan, sweepFrequency := u.sweepFrequency, modulationLock := u.modulationLock } = u)

/-- FQHc stores `v`; for channel 4 its low three bits also become bits 10:8 of `sweepFrequency`, and `highByte`
is recorded when modulation is enabled; no timer is reloaded (rule R113). -/
def Obligations.FqhWriteStoresTheHighBits : Prop :=
  ∀ (c : Chan) (now : Cycle) (v : Byte) (s u : State),
    u = catchUp (BitVec.ofNat 11 (0x40C + 0x40 * c.val)) now s →
    ∃ t, exec (fqhOf c now v) s = .next t ∧
      t.ch c = { u.ch c with fqh := v } ∧ (∀ d, d ≠ c → t.ch d = u.ch d) ∧
      (c.val ≠ 4 → { t with chan := u.chan } = u) ∧
      (c.val = 4 →
        t.sweepFrequency.toNat = 256 * (v.toNat % 8) + u.sweepFrequency.toNat % 256 ∧
        t.modulationLock =
          (if (u.ch 4).ev1.getLsbD 6 = true ∧ (u.ch 4).ev1.getLsbD 4 = true then .highByte else u.modulationLock) ∧
        { t with
          chan := u.chan, sweepFrequency := u.sweepFrequency, modulationLock := u.modulationLock } = u)

/-- EV0c stores `v`, latches the envelope value from its high nibble and clears the freeze; the envelope timer
and everything else stay (rule R114). -/
def Obligations.Ev0WriteLatchesTheEnvelope : Prop :=
  ∀ (c : Chan) (now : Cycle) (v : Byte) (s u : State),
    u = catchUp (BitVec.ofNat 11 (0x410 + 0x40 * c.val)) now s →
    ∃ t, exec (ev0Of c now v) s = .next t ∧
      t.ch c = { u.ch c with
        ev0 := v, envelopeValue := BitVec.ofNat 4 (v.toNat / 16), envelopeFrozen := false } ∧
      (∀ d, d ≠ c → t.ch d = u.ch d) ∧ { t with chan := u.chan } = u ∧
      (v.toNat / 16 = 0 → gateOpen t c = false ∧ enabled t c = enabled u c)

/-- EV1c stores `v`; for channel 5 every write also resets the LFSR to 0; nothing else changes (rule R115). -/
def Obligations.Ev1WriteStoresAndResetsTheNoise : Prop :=
  ∀ (c : Chan) (now : Cycle) (v : Byte) (s u : State),
    u = catchUp (BitVec.ofNat 11 (0x414 + 0x40 * c.val)) now s →
    ∃ t, exec (ev1Of c now v) s = .next t ∧
      t.ch c = { u.ch c with ev1 := v } ∧ (∀ d, d ≠ c → t.ch d = u.ch d) ∧
      t.noiseShift = (if c.val = 5 then 0 else u.noiseShift) ∧
      { t with chan := u.chan, noiseShift := u.noiseShift } = u

/-- RAMc stores `v`, the phase is kept, nothing else changes; a select of 5 or more has level 0 (rules R116,
R152). -/
def Obligations.RamWriteSelectsTheWave : Prop :=
  ∀ (c : WaveChan) (now : Cycle) (v : Byte) (s u : State),
    u = catchUp (BitVec.ofNat 11 (0x418 + 0x40 * c.val)) now s →
    ∃ t, exec (ramOf c now v) s = .next t ∧
      t.ram[c] = v ∧ (∀ d : WaveChan, d ≠ c → t.ram[d] = u.ram[d]) ∧ { t with ram := u.ram } = u ∧
      (5 ≤ v.toNat % 16 → level t (c.castSucc) = 0) ∧
      (∀ w : WaveChan, v.toNat % 16 = w.val →
        level t (c.castSucc) = (u.wave w (u.phase c.castSucc)).toNat % 64)

/-- SWP stores `v` and changes nothing else; SSTOP with bit 0 set clears the six enable bits and keeps the other
bits of INT, and with bit 0 clear does nothing (rules R117, R123). -/
def Obligations.SwpStoresAndSstopDisables : Prop :=
  ∀ (now : Cycle) (v : Byte) (s u : State),
    (u = catchUp 0x51C now s → exec (.swp now v) s = .next { u with swp := v }) ∧
    (u = catchUp 0x580 now s →
      ∃ t, exec (.sstop now v) s = .next t ∧
        (v.getLsbD 0 = false → t = u) ∧
        (v.getLsbD 0 = true →
          (∀ c, t.ch c = { u.ch c with int := (u.ch c).int &&& 0x7F } ∧ enabled t c = false) ∧
          { t with chan := u.chan } = u))

/-- The tables change only by writes the lock lets through, and by RESET, which disables every channel: if channel 5
is enabled after an instruction, no byte of the wave class changed, so with the default bound no table did; if any
channel is, no byte of the lower half of that class did (rules R69, R104, R105, R270). What is protected at other bounds
than the defaults is the model's choice, assumption 20. -/
def Obligations.LockedTablesDoNotChange : Prop :=
  ∀ (i : Instr) (s t : State),
    exec i s = .next t →
    (enabled t 5 = true → ∀ a, a < s.cfg.waveRegionEnd → t.mem.read a = s.mem.read a) ∧
    (enabled t 5 = true → s.cfg.waveRegionEnd = 0x400 → t.mem = s.mem) ∧
    ((∃ c, enabled t c = true) →
      ∀ a, a < s.cfg.waveLockSplit → a < s.cfg.waveRegionEnd → t.mem.read a = s.mem.read a)

/-! ### ADVANCE and sample synthesis -/

/-- ADVANCE produces floor((toCycle - lastSynthesizedCycle) / CPS) samples and moves the time base by exactly
those; for a stamp in the past, or less than one sample ahead, it does nothing (rules R140, R141). -/
def Obligations.AdvanceProducesTheWholeSamples : Prop :=
  ∀ (toCycle : Cycle) (s : State), 1 ≤ s.cfg.cps →
    ∃ t, exec (.advance toCycle) s = .next t ∧
      (toCycle < s.lastSynthesizedCycle + s.cfg.cps → t = s) ∧
      (s.lastSynthesizedCycle + s.cfg.cps ≤ toCycle →
        ∃ n, 1 ≤ n ∧ n = (toCycle - s.lastSynthesizedCycle) / s.cfg.cps ∧
          t.lastSynthesizedCycle = s.lastSynthesizedCycle + n * s.cfg.cps ∧
          { t with lastSynthesizedCycle := s.lastSynthesizedCycle } = produceSamples n s)

/-- How the producer slices time into ADVANCE calls is not observable (rule R144). -/
def Obligations.AdvanceSlicingIsNotObservable : Prop :=
  ∀ (a b : Cycle) (s t u : State), a ≤ b →
    exec (.advance a) s = .next t → exec (.advance b) t = .next u → exec (.advance b) s = .next u

/-- Synthesis, ticks, post-processing and hand-off included, writes no register and no table: of the register
file only enable bits can go from 1 to 0; nor does it touch the consumer's cursor or the control flags (rules
R20, R161, R171). -/
def Obligations.AdvanceKeepsSettings : Prop :=
  ∀ (toCycle : Cycle) (s t : State), exec (.advance toCycle) s = .next t →
    settings t = settings s ∧ ∀ c, enabled t c = true → enabled s c = true

/-- One sample: the effects tick when its divider is 0, then the mix of the six channels stored as the frame at
`fillPos`, whatever the slot held. A completed buffer, and only that, is post-processed, dropped or not, and handed
off. All else is as the mix leaves it, which of the ticked state changes frequency timers, phases and the LFSR alone:
what the tick did to the enable bits, counters, envelopes, sweep and dividers stays done (rules R142, R158, R161, R170,
R209, R215, R216). -/
def Obligations.ProduceSampleFillsOneFrame : Prop :=
  ∀ (s u : State) (fs : List Frame) (n : Nat), RingShape s →
    u = (if s.effectDivider = 0 then { effectsTick s with effectDivider := 48 } else s) →
    fs = (s.bufAt s.prodCursor).set s.fillPos
      ⟨BitVec.ofNat 16 (mixChannels u).accL, BitVec.ofNat 16 (mixChannels u).accR⟩ →
    n = (s.prodCursor + 1) % s.cfg.nBuf →
    { produceSample s with
      effectDivider := u.effectDivider, fillPos := u.fillPos, buf := u.buf, dcOffset := u.dcOffset, ready := u.ready
      prodCursor := u.prodCursor } = (mixChannels u).st ∧
    (∀ c, ∃ timer, (produceSample s).ch c = { u.ch c with frequencyTimer := timer }) ∧
    { produceSample s with
      effectDivider := u.effectDivider, fillPos := u.fillPos, buf := u.buf, dcOffset := u.dcOffset, ready := u.ready
      prodCursor := u.prodCursor, chan := u.chan, samplePhase := u.samplePhase, noiseShift := u.noiseShift } = u ∧
    (produceSample s).effectDivider = (if s.effectDivider = 0 then 47 else s.effectDivider - 1) ∧
    (s.fillPos + 1 < s.cfg.frames →
      (produceSample s).fillPos = s.fillPos + 1 ∧ (produceSample s).buf = s.buf.set s.prodCursor fs ∧
      (produceSample s).dcOffset = s.dcOffset ∧ (produceSample s).ready = s.ready ∧
      (produceSample s).prodCursor = s.prodCursor) ∧
    (s.fillPos + 1 = s.cfg.frames →
      (produceSample s).fillPos = 0 ∧
      (produceSample s).buf = s.buf.set s.prodCursor (postFrames s.cfg.dcBlendDiv s.dcOffset fs).1 ∧
      (produceSample s).dcOffset = (postFrames s.cfg.dcBlendDiv s.dcOffset fs).2 ∧
      (produceSample s).ready = (if s.readyAt n then s.ready else s.ready.set s.prodCursor true) ∧
      (produceSample s).prodCursor = (if s.readyAt n then s.prodCursor else n))

/-- The period of each channel, as the timer is reloaded with it, and its range with the default multipliers (rule
R146). -/
def Obligations.PeriodFollowsTheFrequency : Prop :=
  ∀ (s : State) (c : Chan),
    (c.val ≤ 3 → period s c =
      (2048 - (256 * ((s.ch c).fqh.toNat % 8) + (s.ch c).fql.toNat)) * s.cfg.periodMultWave) ∧
    (c.val = 4 → period s c = (2048 - s.sweepFrequency.toNat) * s.cfg.periodMultWave) ∧
    (c.val = 5 → period s c =
      (2048 - (256 * ((s.ch c).fqh.toNat % 8) + (s.ch c).fql.toNat)) * s.cfg.periodMultNoise) ∧
    ((tickAndReload c s).ch c).frequencyTimer = period s c ∧
    (s.cfg.periodMultWave = 4 → c.val ≤ 4 → 4 ≤ period s c ∧ period s c ≤ 8192) ∧
    (s.cfg.periodMultNoise = 40 → c.val = 5 → 40 ≤ period s c ∧ period s c ≤ 81920)

/-- The level of a wave channel is the low six bits of the entry of the selected table at its phase, and 0 for a
select of 5 or more; the noise level is `NOISE_MAX` while bit 14 of the LFSR is 0, and 0 otherwise (rules R152,
R153). -/
def Obligations.LevelReadsTheTableOrTheNoise : Prop :=
  ∀ s : State,
    (∀ (c w : WaveChan), s.ram[c].toNat % 16 = w.val →
      level s c.castSucc = (s.wave w s.samplePhase[c]).toNat % 64 ∧ level s c.castSucc ≤ 63) ∧
    (∀ c : WaveChan, 5 ≤ s.ram[c].toNat % 16 → level s c.castSucc = 0) ∧
    (s.noiseShift.toNat < 16384 → level s 5 = s.cfg.noiseMax) ∧
    (16384 ≤ s.noiseShift.toNat → level s 5 = 0)

/-- A channel that fails the gate adds nothing to either lane and neither steps its timer nor moves its phase, and
the LFSR stands still while channel 5's gate is closed (rule R143). -/
def Obligations.ClosedGateFreezesTheChannel : Prop :=
  ∀ (s : State) (c : Chan), s.effectDivider ≠ 0 →
    (enabled s c = false ∨ (s.ch c).envelopeValue = 0) →
    (∀ l r : Nat, stepChannel ⟨l, r, s⟩ c = ⟨l, r, s⟩) ∧
    (produceSample s).ch c = s.ch c ∧ (produceSample s).phase c = s.phase c ∧
    (c = 5 → (produceSample s).noiseShift = s.noiseShift)

/-- A channel that passes the gate runs its timer down by one sample's cycles, with one channel tick for each reload:
with more than a sample to go it only counts down; otherwise it ticks at least once and what it then shows is at most a
period (rules R142, R145, R150, R151). -/
def Obligations.OpenGateRunsTheTimer : Prop :=
  ∀ (s : State) (c : Chan), s.cfg.Valid → s.effectDivider ≠ 0 →
    enabled s c = true → (s.ch c).envelopeValue ≠ 0 → 1 ≤ (s.ch c).frequencyTimer →
    ∃ k n : Nat,
      (produceSample s).ch c = { s.ch c with frequencyTimer := n } ∧
      n + s.cfg.cps = (s.ch c).frequencyTimer + k * period s c ∧
      1 ≤ n ∧
      (s.cfg.cps < (s.ch c).frequencyTimer → k = 0 ∧ n = (s.ch c).frequencyTimer - s.cfg.cps) ∧
      ((s.ch c).frequencyTimer ≤ s.cfg.cps → 1 ≤ k ∧ n ≤ period s c) ∧
      (c ≠ 5 → (produceSample s).phase c = s.phase c + BitVec.ofNat 5 k) ∧
      (c = 5 → (produceSample s).noiseShift =
        (lfsrShift s.cfg.noiseFixedBit (noiseTapBit s.cfg (s.ch 5).ev1))^[k] s.noiseShift)

/-- With a period of exactly one sample a wave channel contributes its current level and then moves one entry on
(rule R148 case a). -/
def Obligations.PeriodOfOneSampleMovesOneEntry : Prop :=
  ∀ (m : Mix) (c : Chan), c ≠ 5 → 1 ≤ m.st.cfg.cps →
    enabled m.st c = true → (m.st.ch c).envelopeValue ≠ 0 →
    (m.st.ch c).frequencyTimer = m.st.cfg.cps → period m.st c = m.st.cfg.cps →
    stepChannel m c =
      { accL := m.accL + level m.st c * gainL m.st c
        accR := m.accR + level m.st c * gainR m.st c
        st := m.st.setPhase c (m.st.phase c + 1) }

/-- What a gated-on channel with a running timer of `t` cycles and a period of `p` adds to a sample: of its ticks at `t`,
`t + p`, … exactly the `k` strictly inside the window come before its level is read. The level is that of the entry `k`
further on, or of the LFSR shifted `k` times; it is added times the gain of either side. The timer runs on from the
next tick, and one exactly at the window's end comes after the mix (rules R142, R145, R148, R152, R153, R155, R157). -/
def Obligations.LevelIsReadAfterTheTicksInside : Prop :=
  ∀ (m : Mix) (c : Chan) (k t p lv : Nat),
    enabled m.st c = true → (m.st.ch c).envelopeValue ≠ 0 →
    t = (m.st.ch c).frequencyTimer → p = period m.st c → 1 ≤ t → 1 ≤ p →
    m.st.cfg.cps ≤ t + k * p → (k = 0 ∨ t + (k - 1) * p < m.st.cfg.cps) →
    (c ≠ 5 → lv =
      if h : (m.st.ramAt c).toNat % 16 < 5 then
        (m.st.wave ⟨(m.st.ramAt c).toNat % 16, h⟩ (m.st.phase c + BitVec.ofNat 5 k)).toNat % 64
      else 0) →
    (c = 5 → lv =
      if ((lfsrShift m.st.cfg.noiseFixedBit (noiseTapBit m.st.cfg (m.st.ch 5).ev1))^[k] m.st.noiseShift).toNat < 16384
      then m.st.cfg.noiseMax else 0) →
    (stepChannel m c).accL =
      m.accL + lv * gain (m.st.ch c).envelopeValue (BitVec.ofNat 4 ((m.st.ch c).lrv.toNat / 16)) ∧
    (stepChannel m c).accR =
      m.accR + lv * gain (m.st.ch c).envelopeValue (BitVec.ofNat 4 ((m.st.ch c).lrv.toNat % 16)) ∧
    (m.st.cfg.cps < t + k * p →
      (stepChannel m c).st = setTimer c (t + k * p - m.st.cfg.cps) ((channelTick c)^[k] m.st)) ∧
    (m.st.cfg.cps = t + k * p → (stepChannel m c).st = setTimer c p ((channelTick c)^[k + 1] m.st))

/-- The raw mix of a sample is the sum of the six channels' contributions, and what a channel adds, and what becomes of
its timer, its phase or the LFSR, is what it would be if it were alone: the channels do not interact, and nothing else
of the state moves (rules R142, R157, R161). -/
def Obligations.MixSumsTheSixChannels : Prop :=
  ∀ s : State,
    (mixChannels s).accL = ∑ c : Chan, (stepChannel ⟨0, 0, s⟩ c).accL ∧
    (mixChannels s).accR = ∑ c : Chan, (stepChannel ⟨0, 0, s⟩ c).accR ∧
    (∀ (l r : Nat) (c : Chan),
      (stepChannel ⟨l, r, s⟩ c).accL = l + (stepChannel ⟨0, 0, s⟩ c).accL ∧
      (stepChannel ⟨l, r, s⟩ c).accR = r + (stepChannel ⟨0, 0, s⟩ c).accR ∧
      (stepChannel ⟨l, r, s⟩ c).st = (stepChannel ⟨0, 0, s⟩ c).st) ∧
    (∀ c, (mixChannels s).st.ch c = (stepChannel ⟨0, 0, s⟩ c).st.ch c ∧
      (mixChannels s).st.phase c = (stepChannel ⟨0, 0, s⟩ c).st.phase c) ∧
    (mixChannels s).st.noiseShift = (stepChannel ⟨0, 0, s⟩ 5).st.noiseShift ∧
    { (mixChannels s).st with chan := s.chan, samplePhase := s.samplePhase, noiseShift := s.noiseShift } = s

/-- The raw mix of a frame is at most 10962 per lane, so storing it in 16 bits changes nothing (rules R157,
R158). -/
def Obligations.RawMixFitsItsLane : Prop :=
  ∀ s : State, s.cfg.noiseMax ≤ 63 →
    (mixChannels s).accL ≤ 10962 ∧ (mixChannels s).accR ≤ 10962 ∧
    (zext16 (mixChannels s).accL).toNat = (mixChannels s).accL ∧
    (zext16 (mixChannels s).accR).toNat = (mixChannels s).accR

/-- A wave channel that plays alone at full envelope and pan, with a period of one sample, no envelope stepping
and no auto-shutoff, repeats its wave table: sample j holds 29 times entry (phase + j) mod 32 on both lanes,
effects ticks included (rule R162). -/
def Obligations.WaveformFollowsTheTable : Prop :=
  ∀ (s : State) (c : Chan) (w : WaveChan), c.val ≤ 3 →
    s.cfg.Valid → RingShape s →
    (∀ d, enabled s d = true ↔ d = c) →
    (s.ch c).envelopeValue = 15 → (s.ch c).lrv = 0xFF →
    (s.ch c).ev1.getLsbD 0 = false → (s.ch c).int.getLsbD 5 = false →
    (s.ramAt c).toNat % 16 = w.val →
    (s.ch c).frequencyTimer = s.cfg.cps → period s c = s.cfg.cps →
    ∀ n j, j < n → s.fillPos + n < s.cfg.frames →
      ((produceSamples n s).bufAt s.prodCursor)[s.fillPos + j]? =
        some ⟨BitVec.ofNat 16 (29 * ((s.wave w (s.phase c + BitVec.ofNat 5 j)).toNat % 64)),
          BitVec.ofNat 16 (29 * ((s.wave w (s.phase c + BitVec.ofNat 5 j)).toNat % 64))⟩

/-- A channel tick of a wave channel moves its phase by 1 modulo 32 and nothing else; one of the noise channel
shifts the LFSR left by one bit, the inverted exclusive or of the fixed bit and the selected tap entering at bit
0, and nothing else (rules R150, R151; that two inputs of 1 give a 1, by the formula of rule R151 and against its
parenthesis, is the model's reading, assumption 15). -/
def Obligations.ChannelTickMovesThePhaseOrTheNoise : Prop :=
  ∀ s : State,
    (∀ c : Chan, c ≠ 5 →
      ((channelTick c s).phase c).toNat = ((s.phase c).toNat + 1) % 32 ∧
      (∀ d, d ≠ c → (channelTick c s).phase d = s.phase d) ∧
      { channelTick c s with samplePhase := s.samplePhase } = s) ∧
    (channelTick 5 s).noiseShift.toNat =
      (2 * s.noiseShift.toNat +
        (1 - ((s.noiseShift.toNat / 2 ^ s.cfg.noiseFixedBit +
          s.noiseShift.toNat / 2 ^ noiseTapBit s.cfg (s.ch 5).ev1) % 2))) % 32768 ∧
    { channelTick 5 s with noiseShift := s.noiseShift } = s

/-- The LFSR never comes to its stuck state 0x7FFF: a step from a state whose LFSR has a zero up to its higher
feedback bit leaves such a state, and such a state is not stuck (rules R43, R151; item U11). -/
def Obligations.NoiseNeverGetsStuck : Prop :=
  ∀ s t : State, (∀ k : Fin 8, s.cfg.noiseTap[k] ≠ s.cfg.noiseFixedBit) →
    NoiseAlive s → step s = .next t →
    NoiseAlive t ∧ t.noiseShift ≠ 0x7FFF

/-- The gain formula and its range, and the examples of rule R156 (rules R155, R156). -/
def Obligations.GainFollowsTheFormula : Prop :=
  (∀ e p : BitVec 4,
    gain e p = e.toNat * p.toNat / 8 + (if e.toNat = 0 ∨ p.toNat = 0 then 0 else 1) ∧ gain e p ≤ 29) ∧
  gain 0 15 = 0 ∧ gain 15 0 = 0 ∧ gain 1 1 = 1 ∧ gain 15 1 = 2 ∧ gain 1 15 = 2 ∧ gain 4 2 = 2 ∧
  gain 7 9 = 8 ∧ gain 8 8 = 9 ∧ gain 15 15 = 29

/-! ### Periodic effects -/

/-- The effects tick never touches the frequency timers, the phases, the LFSR, the ring or the DC accumulator,
and changes of the register file at most enable bits, from 1 to 0 (rule R191). -/
def Obligations.EffectsTickFrame : Prop :=
  ∀ s : State,
    (∀ c, ((effectsTick s).ch c).frequencyTimer = (s.ch c).frequencyTimer) ∧
    settings (effectsTick s) = settings s ∧
    (∀ c, enabled (effectsTick s) c = true → enabled s c = true) ∧
    { effectsTick s with
      chan := s.chan, sweepFrequency := s.sweepFrequency, sweepTimer := s.sweepTimer
      modulationCounter := s.modulationCounter, modulationPhase := s.modulationPhase
      modulationLock := s.modulationLock, shutoffDivider := s.shutoffDivider
      envelopeDivider := s.envelopeDivider } = s

/-- The cascade: the sweep/modulation stage acts, and the lock is then cleared, at every tick; the shutoff stage acts
only on a tick that finds its divider 0, the envelope stage only on one that finds both 0; they act on the channels
alone, in this order; each divider counts 3, 2, 1, 0 (rules R170, R171, R183). -/
def Obligations.TickCascade : Prop :=
  ∀ s : State,
    (effectsTick s).modulationLock = .none ∧
    (effectsTick s).sweepFrequency = (sweepModStage s).sweepFrequency ∧
    (effectsTick s).sweepTimer = (sweepModStage s).sweepTimer ∧
    (effectsTick s).modulationCounter = (sweepModStage s).modulationCounter ∧
    (effectsTick s).modulationPhase = (sweepModStage s).modulationPhase ∧
    (s.shutoffDivider ≠ 0 →
      (effectsTick s).shutoffDivider = s.shutoffDivider - 1 ∧
      (effectsTick s).envelopeDivider = s.envelopeDivider ∧
      (effectsTick s).chan = (sweepModStage s).chan) ∧
    (s.shutoffDivider = 0 → s.envelopeDivider ≠ 0 →
      (effectsTick s).shutoffDivider = 3 ∧
      (effectsTick s).envelopeDivider = s.envelopeDivider - 1 ∧
      ∀ c, (effectsTick s).ch c = shutoffChannel ((sweepModStage s).ch c)) ∧
    (s.shutoffDivider = 0 → s.envelopeDivider = 0 →
      (effectsTick s).shutoffDivider = 3 ∧ (effectsTick s).envelopeDivider = 3 ∧
      ∀ c, (effectsTick s).ch c = envelopeChannel (shutoffChannel ((sweepModStage s).ch c)))

/-- A disabled channel 4 is not touched by the sweep/modulation stage; an enabled one in sweep mode whose candidate
reaches 2048 is disabled at once and keeps its frequency, with or without a running timer. On that tick the rest of the
stage still runs: the interval timer counts down, or expires and is reloaded and the counter moves on, its wrap ending
the first pass (rules R174 to R177, R182). -/
def Obligations.SweepOverflowDisablesChannelFour : Prop :=
  ∀ s d : State, d = s.setCh 4 { s.ch 4 with int := (s.ch 4).int &&& 0x7F } →
    (enabled s 4 = false → sweepModStage s = s) ∧
    (enabled s 4 = true → (s.ch 4).ev1.getLsbD 4 = false → s.swp.getLsbD 3 = true →
      2048 ≤ s.sweepFrequency.toNat + s.sweepFrequency.toNat / 2 ^ (s.swp.toNat % 8) →
      (sweepModStage s).ch 4 = { s.ch 4 with int := (s.ch 4).int &&& 0x7F } ∧
      enabled (sweepModStage s) 4 = false ∧
      (sweepModStage s).sweepFrequency = s.sweepFrequency ∧
      ((s.ch 4).ev1.getLsbD 6 = false ∨ s.swp.toNat / 16 % 8 = 0 → sweepModStage s = d) ∧
      ((s.ch 4).ev1.getLsbD 6 = true → s.swp.toNat / 16 % 8 ≠ 0 →
        (1 < s.sweepTimer → sweepModStage s = { d with sweepTimer := s.sweepTimer - 1 }) ∧
        (s.sweepTimer ≤ 1 →
          sweepModStage s = { d with
            sweepTimer := (s.swp.toNat / 16 % 8) * (if s.swp.toNat < 128 then s.cfg.sweepClk0 else s.cfg.sweepClk1)
            modulationCounter := s.modulationCounter + 1
            modulationPhase :=
              (if s.modulationCounter.toNat = 31 ∧ s.modulationPhase = .armed then .active else s.modulationPhase) })))

/-- Without an overflow an enabled channel 4 in sweep mode commits its candidate exactly at an expiry of the
interval timer, which runs when `modEnable` is 1 and the interval is not 0, expires at 1 or less and reloads the
interval; at the expiry the counter moves on, and its wrap turns `armed` into `active` (rules R175, R177, R178,
R182). -/
def Obligations.SweepCommitsAtExpiry : Prop :=
  ∀ (s : State) (cand : Nat), enabled s 4 = true → (s.ch 4).ev1.getLsbD 4 = false →
    cand = (if s.swp.getLsbD 3 then
        s.sweepFrequency.toNat + s.sweepFrequency.toNat / 2 ^ (s.swp.toNat % 8)
      else s.sweepFrequency.toNat - s.sweepFrequency.toNat / 2 ^ (s.swp.toNat % 8)) →
    cand < 2048 →
    (sweepModStage s).chan = s.chan ∧
    ((s.ch 4).ev1.getLsbD 6 = false ∨ s.swp.toNat / 16 % 8 = 0 → sweepModStage s = s) ∧
    ((s.ch 4).ev1.getLsbD 6 = true → s.swp.toNat / 16 % 8 ≠ 0 →
      (1 < s.sweepTimer → sweepModStage s = { s with sweepTimer := s.sweepTimer - 1 }) ∧
      (s.sweepTimer ≤ 1 →
        (sweepModStage s).sweepFrequency.toNat = cand ∧
        (sweepModStage s).modulationCounter.toNat = (s.modulationCounter.toNat + 1) % 32 ∧
        sweepModStage s = { s with
          sweepFrequency := BitVec.ofNat 11 cand
          sweepTimer := (s.swp.toNat / 16 % 8) * (if s.swp.toNat < 128 then s.cfg.sweepClk0 else s.cfg.sweepClk1)
          modulationCounter := s.modulationCounter + 1
          modulationPhase :=
            (if s.modulationCounter.toNat = 31 ∧ s.modulationPhase = .armed then .active else s.modulationPhase) }))

/-- In modulation mode too the interval timer runs when `modEnable` is 1 and the interval is not 0: above 1 it is
counted down and nothing else happens; at 1 or less it expires and reloads the interval. At an expiry, on the first
pass or with repeat, the frequency becomes the register frequency plus the table's signed offset modulo 2048, with the
byte written last since the last tick forced back to its register; otherwise it is kept; the counter moves on in both
cases, and the wrap of the first pass ends it (rules R177, R179 to R182). -/
def Obligations.ModulationRecomputesAtExpiry : Prop :=
  ∀ (s : State) (base new : Nat), enabled s 4 = true → (s.ch 4).ev1.getLsbD 4 = true →
    base = 256 * ((s.ch 4).fqh.toNat % 8) + (s.ch 4).fql.toNat →
    (new : Int) = (base + (s.mod s.modulationCounter).toInt) % 2048 →
    ((s.ch 4).ev1.getLsbD 6 = false ∨ s.swp.toNat / 16 % 8 = 0 → sweepModStage s = s) ∧
    ((s.ch 4).ev1.getLsbD 6 = true → s.swp.toNat / 16 % 8 ≠ 0 →
      (1 < s.sweepTimer → sweepModStage s = { s with sweepTimer := s.sweepTimer - 1 }) ∧
      (s.sweepTimer ≤ 1 →
        (s.modulationPhase = .armed ∨ (s.ch 4).ev1.getLsbD 5 = true →
          (s.modulationLock = .none → (sweepModStage s).sweepFrequency.toNat = new) ∧
          (s.modulationLock = .lowByte →
            (sweepModStage s).sweepFrequency.toNat = 256 * (new / 256) + (s.ch 4).fql.toNat) ∧
          (s.modulationLock = .highByte →
            (sweepModStage s).sweepFrequency.toNat = 256 * ((s.ch 4).fqh.toNat % 8) + new % 256)) ∧
        (s.modulationPhase ≠ .armed → (s.ch 4).ev1.getLsbD 5 = false →
          (sweepModStage s).sweepFrequency = s.sweepFrequency) ∧
        (sweepModStage s).modulationCounter.toNat = (s.modulationCounter.toNat + 1) % 32 ∧
        ∃ f, sweepModStage s = { s with
          sweepFrequency := f
          sweepTimer := (s.swp.toNat / 16 % 8) * (if s.swp.toNat < 128 then s.cfg.sweepClk0 else s.cfg.sweepClk1)
          modulationCounter := s.modulationCounter + 1
          modulationPhase :=
            (if s.modulationCounter.toNat = 31 ∧ s.modulationPhase = .armed then .active else s.modulationPhase) }))

/-- A channel with auto-shutoff and a counter of k is still enabled after k shutoff stages and is disabled by the
next one, with the counter at 0x1F and the other bits of INT kept; in sustain mode, or disabled, a channel is
left alone (rules R184, R185). -/
def Obligations.ShutoffAfterExactlyCounterPlusOneStages : Prop :=
  (∀ (s : State) (c : Chan) (k : Nat),
    enabled s c = true → (s.ch c).int.getLsbD 5 = true → (s.ch c).shutoffTimer.toNat = k →
    (∀ j, j ≤ k → (shutoffStage^[j] s).ch c = { s.ch c with shutoffTimer := BitVec.ofNat 5 (k - j) }) ∧
    (shutoffStage^[k + 1] s).ch c =
      { s.ch c with int := (s.ch c).int &&& 0x7F, shutoffTimer := 0x1F }) ∧
  (∀ (s : State) (c : Chan), enabled s c = false ∨ (s.ch c).int.getLsbD 5 = false →
    (shutoffStage s).ch c = s.ch c)

/-- The envelope stage: a channel that is disabled, not envelope-enabled or frozen is left alone; otherwise the
timer counts down, and at 0 it is reloaded and the value steps by 1 in the direction bit's sense; at saturation
the value is reloaded with repeat, and kept and frozen without (rules R186 to R189). -/
def Obligations.EnvelopeStageSteps : Prop :=
  ∀ (s : State) (c : Chan) (h : Channel), h = s.ch c →
    (enabled s c = false ∨ h.ev1.getLsbD 0 = false ∨ h.envelopeFrozen = true → (envelopeStage s).ch c = h) ∧
    (enabled s c = true → h.ev1.getLsbD 0 = true → h.envelopeFrozen = false →
      (h.envelopeTimer ≠ 0 →
        (envelopeStage s).ch c = { h with envelopeTimer := BitVec.ofNat 3 (h.envelopeTimer.toNat - 1) }) ∧
      (h.envelopeTimer = 0 → ∀ r : BitVec 3, r.toNat = h.ev0.toNat % 8 →
        (h.ev0.getLsbD 3 = true → h.envelopeValue.toNat < 15 →
          (envelopeStage s).ch c =
            { h with envelopeTimer := r, envelopeValue := BitVec.ofNat 4 (h.envelopeValue.toNat + 1) }) ∧
        (h.ev0.getLsbD 3 = false → 0 < h.envelopeValue.toNat →
          (envelopeStage s).ch c =
            { h with envelopeTimer := r, envelopeValue := BitVec.ofNat 4 (h.envelopeValue.toNat - 1) }) ∧
        ((h.ev0.getLsbD 3 = true ∧ h.envelopeValue.toNat = 15) ∨
            (h.ev0.getLsbD 3 = false ∧ h.envelopeValue.toNat = 0) →
          (h.ev1.getLsbD 1 = true →
            (envelopeStage s).ch c =
              { h with envelopeTimer := r, envelopeValue := BitVec.ofNat 4 (h.ev0.toNat / 16) }) ∧
          (h.ev1.getLsbD 1 = false →
            (envelopeStage s).ch c = { h with envelopeTimer := r, envelopeFrozen := true }))))

/-! ### Post-processing -/

/-- With a settled accumulator post-processing is exactly the scaling of every frame, narrowed by wrap-around,
and the accumulator stays 0 (rules R201, R207). -/
def Obligations.SettledPostProcessingOnlyScales : Prop :=
  ∀ (d : Nat) (fs : List Frame),
    postFrames d 0 fs =
      (fs.map fun f =>
        ⟨BitVec.ofInt 16 ((f.l.toNat / 16) * 95), BitVec.ofInt 16 ((f.r.toNat / 16) * 95)⟩, 0)

/-- The correction is subtracted from the accumulator, which over any frames moves toward 0 or stays, never across
it (rule R206). -/
def Obligations.DcAccumulatorMovesTowardZero : Prop :=
  ∀ (d : Nat) (dc : Int) (fs : List Frame), 1 ≤ d →
    (∀ f : Frame,
      (postFrame d dc f).2 = dc - dcCorrection d dc (scaleLane f.l + dc) (scaleLane f.r + dc) ∨
      (dc = 0 ∧ (postFrame d dc f).2 = 0)) ∧
    (0 ≤ dc → 0 ≤ (postFrames d dc fs).2 ∧ (postFrames d dc fs).2 ≤ dc) ∧
    (dc ≤ 0 → dc ≤ (postFrames d dc fs).2 ∧ (postFrames d dc fs).2 ≤ 0)

/-- The default filter brings any 16-bit accumulator to exactly zero within 1389 frames and keeps it there: a
negative one with any input, a positive one with both raw lanes at least 32 throughout (rule R208). -/
def Obligations.DcConvergesWithin1389Frames : Prop :=
  ∀ (dc : Int) (fs : List Frame), -32768 ≤ dc → dc ≤ 32767 →
    (dc ≤ 0 ∨ ∀ f ∈ fs, 32 ≤ f.l.toNat ∧ 32 ≤ f.r.toNat) → 1389 ≤ fs.length →
    (postFrames 256 dc fs).2 = 0

/-- One frame with a nonzero accumulator: the steady branch subtracts sign(dc) times ceil(|dc| / divisor); when
that would take a lane below the offset, the clamping branch makes the smaller lane exactly the offset (rules
R202 to R206). A buffer is replaced frame by frame in this way, in index order, each frame with the accumulator that the
one before it left (rule R200). -/
def Obligations.DcFrameHasTwoBranches : Prop :=
  (∀ (d : Nat) (dc sl sr corr : Int) (f : Frame), 1 ≤ d → dc ≠ 0 →
    sl = (f.l.toNat / 16 : Nat) * 95 → sr = (f.r.toNat / 16 : Nat) * 95 →
    d * |corr| < |dc| + d → |dc| ≤ d * |corr| → 0 ≤ corr * dc →
    (corr ≤ sl → corr ≤ sr →
      postFrame d dc f = (⟨BitVec.ofInt 16 (sl + dc - corr), BitVec.ofInt 16 (sr + dc - corr)⟩, dc - corr)) ∧
    (sl < corr ∨ sr < corr →
      postFrame d dc f =
        (⟨BitVec.ofInt 16 (dc + (sl - min sl sr)), BitVec.ofInt 16 (dc + (sr - min sl sr))⟩, dc - min sl sr))) ∧
  (∀ (d : Nat) (dc : Int), postFrames d dc [] = ([], dc)) ∧
  (∀ (d : Nat) (dc : Int) (f : Frame) (fs : List Frame),
    postFrames d dc (f :: fs) =
      ((postFrame d dc f).1 :: (postFrames d (postFrame d dc f).2 fs).1, (postFrames d (postFrame d dc f).2 fs).2)) ∧
  ∀ (d : Nat) (dc : Int) (fs : List Frame) (i : Nat),
    (postFrames d dc fs).1[i]? = (fs[i]?).map fun f => (postFrame d (postFrames d dc (fs.take i)).2 f).1

/-! ### The ring, the consumer and the controls -/

/-- HandOff publishes the completed buffer and moves on if the next one is not ready, and otherwise changes
nothing (rules R215, R216). -/
def Obligations.HandOffPublishesOrDrops : Prop :=
  ∀ (s : State) (n : Nat), n = (s.prodCursor + 1) % s.cfg.nBuf →
    (s.readyAt n = true → handOff s = s) ∧
    (s.readyAt n = false →
      (handOff s).prodCursor = n ∧ (handOff s).ready = s.ready.set s.prodCursor true ∧
      { handOff s with prodCursor := s.prodCursor, ready := s.ready } = s)

/-- The producer only appends to the queue of handed-off buffers: no ADVANCE rewrites or takes back a buffer that
is ready (rules R50, R217, R227). -/
def Obligations.ProducerOnlyAppendsToTheQueue : Prop :=
  ∀ (toCycle : Cycle) (s t : State), Inv s → exec (.advance toCycle) s = .next t →
    ∃ new, ringQueue t = ringQueue s ++ new ∧ queueLength t ≤ s.cfg.nBuf - 1

/-- CONSUME takes the oldest queued buffer, or answers silence on an underrun, when paused or when muted (rules
R222 to R226); it touches nothing of the producer's (the field `returned` is the model's, assumption 7). -/
def Obligations.ConsumeTakesTheOldestBuffer : Prop :=
  ∀ s : State, Inv s → ∃ t, exec .consume s = .next t ∧
    (s.paused = true →
      ringQueue t = ringQueue s ∧ t = { s with returned := some (List.replicate s.cfg.frames ⟨0, 0⟩) }) ∧
    (s.paused = false → ringQueue s = [] →
      t = { s with returned := some (List.replicate s.cfg.frames ⟨0, 0⟩) }) ∧
    (s.paused = false → ∀ b q, ringQueue s = b :: q →
      ringQueue t = q ∧ t.consCursor = (s.consCursor + 1) % s.cfg.nBuf ∧
      t.ready = s.ready.set s.consCursor false ∧
      t.returned = some (if s.muted then List.replicate s.cfg.frames ⟨0, 0⟩ else b)) ∧
    { t with consCursor := s.consCursor, ready := s.ready, returned := s.returned } = s

/-- While nothing is consumed, the buffers completed from any state of a run are queued until `N_BUF` - 1 wait and
dropped from then on: after `k` more buffers the consumer's cursor is where it was, the fill starts anew, the queue has
as many as there was room for, and those that waited still wait, in their order: the newest are dropped. From power-on
the producer's cursor stays at `N_BUF` - 1 and exactly the buffers below it are ready (rules R216, R218). -/
def Obligations.BackpressureDropsTheNewest : Prop :=
  (∀ (s t : State) (k : Nat), Inv s → s.fillPos = 0 → t = produceSamples (k * s.cfg.frames) s →
    t.consCursor = s.consCursor ∧ t.fillPos = 0 ∧
    queueLength t = min (queueLength s + k) (s.cfg.nBuf - 1) ∧
    t.prodCursor = (s.consCursor + min (queueLength s + k) (s.cfg.nBuf - 1)) % s.cfg.nBuf ∧
    ∃ new, ringQueue t = ringQueue s ++ new) ∧
  ∀ (p : Params) (k : Nat) (t : State), p.Valid → t = produceSamples (k * p.frames) (State.powerOn p) →
    t.prodCursor = min k (p.nBuf - 1) ∧ t.fillPos = 0 ∧ t.consCursor = 0 ∧
    ∀ j, j < p.nBuf → (t.readyAt j = true ↔ j < min k (p.nBuf - 1))

/-- SETMUTED, PAUSE and RESUME store their flag and change nothing else (rules R230, R231, R232). -/
def Obligations.ControlOperationsStoreTheirFlag : Prop :=
  ∀ (b : Bool) (s : State),
    exec (.setMuted b) s = .next { s with muted := b } ∧
    exec .pause s = .next { s with paused := true } ∧
    exec .resume s = .next { s with paused := false }

/-- Muting and pausing do not disturb the producer: every instruction but CONSUME and the control operations does
the same whatever the two flags are, and keeps them (rules R225, R226, R263). -/
def Obligations.MuteAndPauseDoNotDisturbTheProducer : Prop :=
  ∀ (i : Instr) (s t : State) (m p : Bool),
    i ≠ .consume → i ≠ .pause → i ≠ .resume → (∀ b, i ≠ .setMuted b) →
    exec i s = .next t →
    t.muted = s.muted ∧ t.paused = s.paused ∧
    exec i { s with muted := m, paused := p } = .next { t with muted := m, paused := p }

/-! ### Reset and the invariants -/

/-- RESET gives every element its reset value and keeps `muted` and `paused` (rules R58, R260, R263); it also
keeps the parameters, the pending operations and the last answer (the model's fields, assumption 8). -/
def Obligations.ResetRestoresThePowerOnState : Prop :=
  ∀ s : State, ∃ t, exec .reset s = .next t ∧
    (∀ c, t.ch c = ⟨0, 0, 0, 0, 0, 0, 0, 0, 0, false, 0⟩ ∧ t.phase c = 0) ∧ (∀ c : WaveChan, t.ram[c] = 0) ∧
    (∀ w i, t.wave w i = 0) ∧ (∀ i, t.mod i = 0) ∧ t.swp = 0 ∧
    t.sweepFrequency = 0 ∧ t.sweepTimer = 0 ∧ t.modulationCounter = 0 ∧ t.noiseShift = 0 ∧
    t.modulationPhase = .idle ∧ t.modulationLock = .none ∧
    t.effectDivider = s.cfg.effectDivReset ∧ t.shutoffDivider = s.cfg.shutoffDivReset ∧
    t.envelopeDivider = s.cfg.envelopeDivReset ∧ t.lastSynthesizedCycle = 0 ∧ t.dcOffset = s.cfg.dcReset ∧
    t.buf.length = s.cfg.nBuf ∧ (∀ b ∈ t.buf, b = List.replicate s.cfg.frames ⟨0, 0⟩) ∧
    t.ready = List.replicate s.cfg.nBuf false ∧ t.prodCursor = 0 ∧ t.fillPos = 0 ∧ t.consCursor = 0 ∧
    t.muted = s.muted ∧ t.paused = s.paused ∧
    t.cfg = s.cfg ∧ t.pending = s.pending ∧ t.returned = s.returned

/-- The invariant of rule R57 holds at reset (with the default parameters, assumption 3; the canonical tables are the
model's, assumption 10). -/
def Obligations.InvariantHoldsAtReset : Prop :=
  Inv State.reset ∧ SamplesCounted State.reset 0 ∧ NoiseAlive State.reset ∧ Silent State.reset

/-- The invariant of rule R57 holds at power-on with any parameters that meet their constraints (assumptions 3 and 6;
the canonical tables are the model's, assumption 10). -/
def Obligations.InvariantHoldsAtPowerOn : Prop :=
  ∀ p : Params, p.Valid → Inv (State.powerOn p) ∧ SamplesCounted (State.powerOn p) 0

/-- Every step keeps the invariant of rule R57: the ring's shape and ownership, the counters' ranges, the time base's
width among them, the running timers, the settled accumulator and the canonical tables (the last are the model's,
assumption 10). -/
def Obligations.EveryStepKeepsTheInvariant : Prop :=
  ∀ s t : State, Inv s → step s = .next t → Inv t

/-- Every step keeps the count of samples that the time base, the fill position and the effects divider agree on
(rules R44, R45, R51). -/
def Obligations.EveryStepKeepsTheSampleCount : Prop :=
  ∀ (s t : State) (n : Nat), SamplesCounted s n → step s = .next t → ∃ m, SamplesCounted t m

/-- Silence: while no INT write sets an enable bit, everything the ring holds and CONSUME returns is zero (rule
R160). -/
def Obligations.SilenceWithNoChannelEnabled : Prop :=
  ∀ (i : Instr) (s t : State), s.cfg.dcReset = 0 → Silent s →
    (∀ c now v, i = intOf c now v → v.getLsbD 7 = false) →
    exec i s = .next t → Silent t
end

