-- ==== Sys2Proof/Laws/State.lean ====
section
/-! SUPPORT. One lemma per field for each named update of the state: what it leaves alone. -/

namespace Sys2Proof.Machine

@[simp] theorem State.setCh_cfg (s : State) (c : Chan) (ch : Channel) : (s.setCh c ch).cfg = s.cfg := rfl
@[simp] theorem State.setCh_ram (s : State) (c : Chan) (ch : Channel) : (s.setCh c ch).ram = s.ram := rfl
@[simp] theorem State.setCh_swp (s : State) (c : Chan) (ch : Channel) : (s.setCh c ch).swp = s.swp := rfl
@[simp] theorem State.setCh_mem (s : State) (c : Chan) (ch : Channel) : (s.setCh c ch).mem = s.mem := rfl
@[simp] theorem State.setCh_samplePhase (s : State) (c : Chan) (ch : Channel) : (s.setCh c ch).samplePhase = s.samplePhase := rfl
@[simp] theorem State.setCh_sweepFrequency (s : State) (c : Chan) (ch : Channel) : (s.setCh c ch).sweepFrequency = s.sweepFrequency := rfl
@[simp] theorem State.setCh_sweepTimer (s : State) (c : Chan) (ch : Channel) : (s.setCh c ch).sweepTimer = s.sweepTimer := rfl
@[simp] theorem State.setCh_modulationCounter (s : State) (c : Chan) (ch : Channel) : (s.setCh c ch).modulationCounter = s.modulationCounter := rfl
@[simp] theorem State.setCh_modulationPhase (s : State) (c : Chan) (ch : Channel) : (s.setCh c ch).modulationPhase = s.modulationPhase := rfl
@[simp] theorem State.setCh_modulationLock (s : State) (c : Chan) (ch : Channel) : (s.setCh c ch).modulationLock = s.modulationLock := rfl
@[simp] theorem State.setCh_noiseShift (s : State) (c : Chan) (ch : Channel) : (s.setCh c ch).noiseShift = s.noiseShift := rfl
@[simp] theorem State.setCh_lastSynthesizedCycle (s : State) (c : Chan) (ch : Channel) : (s.setCh c ch).lastSynthesizedCycle = s.lastSynthesizedCycle := rfl
@[simp] theorem State.setCh_effectDivider (s : State) (c : Chan) (ch : Channel) : (s.setCh c ch).effectDivider = s.effectDivider := rfl
@[simp] theorem State.setCh_shutoffDivider (s : State) (c : Chan) (ch : Channel) : (s.setCh c ch).shutoffDivider = s.shutoffDivider := rfl
@[simp] theorem State.setCh_envelopeDivider (s : State) (c : Chan) (ch : Channel) : (s.setCh c ch).envelopeDivider = s.envelopeDivider := rfl
@[simp] theorem State.setCh_dcOffset (s : State) (c : Chan) (ch : Channel) : (s.setCh c ch).dcOffset = s.dcOffset := rfl
@[simp] theorem State.setCh_buf (s : State) (c : Chan) (ch : Channel) : (s.setCh c ch).buf = s.buf := rfl
@[simp] theorem State.setCh_ready (s : State) (c : Chan) (ch : Channel) : (s.setCh c ch).ready = s.ready := rfl
@[simp] theorem State.setCh_prodCursor (s : State) (c : Chan) (ch : Channel) : (s.setCh c ch).prodCursor = s.prodCursor := rfl
@[simp] theorem State.setCh_fillPos (s : State) (c : Chan) (ch : Channel) : (s.setCh c ch).fillPos = s.fillPos := rfl
@[simp] theorem State.setCh_consCursor (s : State) (c : Chan) (ch : Channel) : (s.setCh c ch).consCursor = s.consCursor := rfl
@[simp] theorem State.setCh_muted (s : State) (c : Chan) (ch : Channel) : (s.setCh c ch).muted = s.muted := rfl
@[simp] theorem State.setCh_paused (s : State) (c : Chan) (ch : Channel) : (s.setCh c ch).paused = s.paused := rfl
@[simp] theorem State.setCh_pending (s : State) (c : Chan) (ch : Channel) : (s.setCh c ch).pending = s.pending := rfl
@[simp] theorem State.setCh_returned (s : State) (c : Chan) (ch : Channel) : (s.setCh c ch).returned = s.returned := rfl

@[simp] theorem State.setCh_chan (s : State) (c : Chan) (ch : Channel) :
    (s.setCh c ch).chan = s.chan.set c ch := rfl

@[simp] theorem State.setPhase_cfg (s : State) (c : Chan) (p : Entry) : (s.setPhase c p).cfg = s.cfg := by
  unfold State.setPhase; split <;> rfl
@[simp] theorem State.setPhase_chan (s : State) (c : Chan) (p : Entry) : (s.setPhase c p).chan = s.chan := by
  unfold State.setPhase; split <;> rfl
@[simp] theorem State.setPhase_ram (s : State) (c : Chan) (p : Entry) : (s.setPhase c p).ram = s.ram := by
  unfold State.setPhase; split <;> rfl
@[simp] theorem State.setPhase_swp (s : State) (c : Chan) (p : Entry) : (s.setPhase c p).swp = s.swp := by
  unfold State.setPhase; split <;> rfl
@[simp] theorem State.setPhase_mem (s : State) (c : Chan) (p : Entry) : (s.setPhase c p).mem = s.mem := by
  unfold State.setPhase; split <;> rfl
@[simp] theorem State.setPhase_sweepFrequency (s : State) (c : Chan) (p : Entry) : (s.setPhase c p).sweepFrequency = s.sweepFrequency := by
  unfold State.setPhase; split <;> rfl
@[simp] theorem State.setPhase_sweepTimer (s : State) (c : Chan) (p : Entry) : (s.setPhase c p).sweepTimer = s.sweepTimer := by
  unfold State.setPhase; split <;> rfl
@[simp] theorem State.setPhase_modulationCounter (s : State) (c : Chan) (p : Entry) : (s.setPhase c p).modulationCounter = s.modulationCounter := by
  unfold State.setPhase; split <;> rfl
@[simp] theorem State.setPhase_modulationPhase (s : State) (c : Chan) (p : Entry) : (s.setPhase c p).modulationPhase = s.modulationPhase := by
  unfold State.setPhase; split <;> rfl
@[simp] theorem State.setPhase_modulationLock (s : State) (c : Chan) (p : Entry) : (s.setPhase c p).modulationLock = s.modulationLock := by
  unfold State.setPhase; split <;> rfl
@[simp] theorem State.setPhase_noiseShift (s : State) (c : Chan) (p : Entry) : (s.setPhase c p).noiseShift = s.noiseShift := by
  unfold State.setPhase; split <;> rfl
@[simp] theorem State.setPhase_lastSynthesizedCycle (s : State) (c : Chan) (p : Entry) : (s.setPhase c p).lastSynthesizedCycle = s.lastSynthesizedCycle := by
  unfold State.setPhase; split <;> rfl
@[simp] theorem State.setPhase_effectDivider (s : State) (c : Chan) (p : Entry) : (s.setPhase c p).effectDivider = s.effectDivider := by
  unfold State.setPhase; split <;> rfl
@[simp] theorem State.setPhase_shutoffDivider (s : State) (c : Chan) (p : Entry) : (s.setPhase c p).shutoffDivider = s.shutoffDivider := by
  unfold State.setPhase; split <;> rfl
@[simp] theorem State.setPhase_envelopeDivider (s : State) (c : Chan) (p : Entry) : (s.setPhase c p).envelopeDivider = s.envelopeDivider := by
  unfold State.setPhase; split <;> rfl
@[simp] theorem State.setPhase_dcOffset (s : State) (c : Chan) (p : Entry) : (s.setPhase c p).dcOffset = s.dcOffset := by
  unfold State.setPhase; split <;> rfl
@[simp] theorem State.setPhase_buf (s : State) (c : Chan) (p : Entry) : (s.setPhase c p).buf = s.buf := by
  unfold State.setPhase; split <;> rfl
@[simp] theorem State.setPhase_ready (s : State) (c : Chan) (p : Entry) : (s.setPhase c p).ready = s.ready := by
  unfold State.setPhase; split <;> rfl
@[simp] theorem State.setPhase_prodCursor (s : State) (c : Chan) (p : Entry) : (s.setPhase c p).prodCursor = s.prodCursor := by
  unfold State.setPhase; split <;> rfl
@[simp] theorem State.setPhase_fillPos (s : State) (c : Chan) (p : Entry) : (s.setPhase c p).fillPos = s.fillPos := by
  unfold State.setPhase; split <;> rfl
@[simp] theorem State.setPhase_consCursor (s : State) (c : Chan) (p : Entry) : (s.setPhase c p).consCursor = s.consCursor := by
  unfold State.setPhase; split <;> rfl
@[simp] theorem State.setPhase_muted (s : State) (c : Chan) (p : Entry) : (s.setPhase c p).muted = s.muted := by
  unfold State.setPhase; split <;> rfl
@[simp] theorem State.setPhase_paused (s : State) (c : Chan) (p : Entry) : (s.setPhase c p).paused = s.paused := by
  unfold State.setPhase; split <;> rfl
@[simp] theorem State.setPhase_pending (s : State) (c : Chan) (p : Entry) : (s.setPhase c p).pending = s.pending := by
  unfold State.setPhase; split <;> rfl
@[simp] theorem State.setPhase_returned (s : State) (c : Chan) (p : Entry) : (s.setPhase c p).returned = s.returned := by
  unfold State.setPhase; split <;> rfl

@[simp] theorem State.setRam_cfg (s : State) (c : WaveChan) (v : Byte) : (s.setRam c v).cfg = s.cfg := rfl
@[simp] theorem State.setRam_chan (s : State) (c : WaveChan) (v : Byte) : (s.setRam c v).chan = s.chan := rfl
@[simp] theorem State.setRam_swp (s : State) (c : WaveChan) (v : Byte) : (s.setRam c v).swp = s.swp := rfl
@[simp] theorem State.setRam_mem (s : State) (c : WaveChan) (v : Byte) : (s.setRam c v).mem = s.mem := rfl
@[simp] theorem State.setRam_samplePhase (s : State) (c : WaveChan) (v : Byte) : (s.setRam c v).samplePhase = s.samplePhase := rfl
@[simp] theorem State.setRam_sweepFrequency (s : State) (c : WaveChan) (v : Byte) : (s.setRam c v).sweepFrequency = s.sweepFrequency := rfl
@[simp] theorem State.setRam_sweepTimer (s : State) (c : WaveChan) (v : Byte) : (s.setRam c v).sweepTimer = s.sweepTimer := rfl
@[simp] theorem State.setRam_modulationCounter (s : State) (c : WaveChan) (v : Byte) : (s.setRam c v).modulationCounter = s.modulationCounter := rfl
@[simp] theorem State.setRam_modulationPhase (s : State) (c : WaveChan) (v : Byte) : (s.setRam c v).modulationPhase = s.modulationPhase := rfl
@[simp] theorem State.setRam_modulationLock (s : State) (c : WaveChan) (v : Byte) : (s.setRam c v).modulationLock = s.modulationLock := rfl
@[simp] theorem State.setRam_noiseShift (s : State) (c : WaveChan) (v : Byte) : (s.setRam c v).noiseShift = s.noiseShift := rfl
@[simp] theorem State.setRam_lastSynthesizedCycle (s : State) (c : WaveChan) (v : Byte) : (s.setRam c v).lastSynthesizedCycle = s.lastSynthesizedCycle := rfl
@[simp] theorem State.setRam_effectDivider (s : State) (c : WaveChan) (v : Byte) : (s.setRam c v).effectDivider = s.effectDivider := rfl
@[simp] theorem State.setRam_shutoffDivider (s : State) (c : WaveChan) (v : Byte) : (s.setRam c v).shutoffDivider = s.shutoffDivider := rfl
@[simp] theorem State.setRam_envelopeDivider (s : State) (c : WaveChan) (v : Byte) : (s.setRam c v).envelopeDivider = s.envelopeDivider := rfl
@[simp] theorem State.setRam_dcOffset (s : State) (c : WaveChan) (v : Byte) : (s.setRam c v).dcOffset = s.dcOffset := rfl
@[simp] theorem State.setRam_buf (s : State) (c : WaveChan) (v : Byte) : (s.setRam c v).buf = s.buf := rfl
@[simp] theorem State.setRam_ready (s : State) (c : WaveChan) (v : Byte) : (s.setRam c v).ready = s.ready := rfl
@[simp] theorem State.setRam_prodCursor (s : State) (c : WaveChan) (v : Byte) : (s.setRam c v).prodCursor = s.prodCursor := rfl
@[simp] theorem State.setRam_fillPos (s : State) (c : WaveChan) (v : Byte) : (s.setRam c v).fillPos = s.fillPos := rfl
@[simp] theorem State.setRam_consCursor (s : State) (c : WaveChan) (v : Byte) : (s.setRam c v).consCursor = s.consCursor := rfl
@[simp] theorem State.setRam_muted (s : State) (c : WaveChan) (v : Byte) : (s.setRam c v).muted = s.muted := rfl
@[simp] theorem State.setRam_paused (s : State) (c : WaveChan) (v : Byte) : (s.setRam c v).paused = s.paused := rfl
@[simp] theorem State.setRam_pending (s : State) (c : WaveChan) (v : Byte) : (s.setRam c v).pending = s.pending := rfl
@[simp] theorem State.setRam_returned (s : State) (c : WaveChan) (v : Byte) : (s.setRam c v).returned = s.returned := rfl

@[simp] theorem setReady_cfg (s : State) (k : Nat) (b : Bool) : (setReady k b s).cfg = s.cfg := rfl
@[simp] theorem setReady_chan (s : State) (k : Nat) (b : Bool) : (setReady k b s).chan = s.chan := rfl
@[simp] theorem setReady_ram (s : State) (k : Nat) (b : Bool) : (setReady k b s).ram = s.ram := rfl
@[simp] theorem setReady_swp (s : State) (k : Nat) (b : Bool) : (setReady k b s).swp = s.swp := rfl
@[simp] theorem setReady_mem (s : State) (k : Nat) (b : Bool) : (setReady k b s).mem = s.mem := rfl
@[simp] theorem setReady_samplePhase (s : State) (k : Nat) (b : Bool) : (setReady k b s).samplePhase = s.samplePhase := rfl
@[simp] theorem setReady_sweepFrequency (s : State) (k : Nat) (b : Bool) : (setReady k b s).sweepFrequency = s.sweepFrequency := rfl
@[simp] theorem setReady_sweepTimer (s : State) (k : Nat) (b : Bool) : (setReady k b s).sweepTimer = s.sweepTimer := rfl
@[simp] theorem setReady_modulationCounter (s : State) (k : Nat) (b : Bool) : (setReady k b s).modulationCounter = s.modulationCounter := rfl
@[simp] theorem setReady_modulationPhase (s : State) (k : Nat) (b : Bool) : (setReady k b s).modulationPhase = s.modulationPhase := rfl
@[simp] theorem setReady_modulationLock (s : State) (k : Nat) (b : Bool) : (setReady k b s).modulationLock = s.modulationLock := rfl
@[simp] theorem setReady_noiseShift (s : State) (k : Nat) (b : Bool) : (setReady k b s).noiseShift = s.noiseShift := rfl
@[simp] theorem setReady_lastSynthesizedCycle (s : State) (k : Nat) (b : Bool) : (setReady k b s).lastSynthesizedCycle = s.lastSynthesizedCycle := rfl
@[simp] theorem setReady_effectDivider (s : State) (k : Nat) (b : Bool) : (setReady k b s).effectDivider = s.effectDivider := rfl
@[simp] theorem setReady_shutoffDivider (s : State) (k : Nat) (b : Bool) : (setReady k b s).shutoffDivider = s.shutoffDivider := rfl
@[simp] theorem setReady_envelopeDivider (s : State) (k : Nat) (b : Bool) : (setReady k b s).envelopeDivider = s.envelopeDivider := rfl
@[simp] theorem setReady_dcOffset (s : State) (k : Nat) (b : Bool) : (setReady k b s).dcOffset = s.dcOffset := rfl
@[simp] theorem setReady_buf (s : State) (k : Nat) (b : Bool) : (setReady k b s).buf = s.buf := rfl
@[simp] theorem setReady_prodCursor (s : State) (k : Nat) (b : Bool) : (setReady k b s).prodCursor = s.prodCursor := rfl
@[simp] theorem setReady_fillPos (s : State) (k : Nat) (b : Bool) : (setReady k b s).fillPos = s.fillPos := rfl
@[simp] theorem setReady_consCursor (s : State) (k : Nat) (b : Bool) : (setReady k b s).consCursor = s.consCursor := rfl
@[simp] theorem setReady_muted (s : State) (k : Nat) (b : Bool) : (setReady k b s).muted = s.muted := rfl
@[simp] theorem setReady_paused (s : State) (k : Nat) (b : Bool) : (setReady k b s).paused = s.paused := rfl
@[simp] theorem setReady_pending (s : State) (k : Nat) (b : Bool) : (setReady k b s).pending = s.pending := rfl
@[simp] theorem setReady_returned (s : State) (k : Nat) (b : Bool) : (setReady k b s).returned = s.returned := rfl

@[simp] theorem setReady_ready (s : State) (k : Nat) (b : Bool) :
    (setReady k b s).ready = s.ready.set k b := rfl

@[simp] theorem answer_cfg (s : State) (out : List Frame) : (answer out s).cfg = s.cfg := rfl
@[simp] theorem answer_chan (s : State) (out : List Frame) : (answer out s).chan = s.chan := rfl
@[simp] theorem answer_ram (s : State) (out : List Frame) : (answer out s).ram = s.ram := rfl
@[simp] theorem answer_swp (s : State) (out : List Frame) : (answer out s).swp = s.swp := rfl
@[simp] theorem answer_mem (s : State) (out : List Frame) : (answer out s).mem = s.mem := rfl
@[simp] theorem answer_samplePhase (s : State) (out : List Frame) : (answer out s).samplePhase = s.samplePhase := rfl
@[simp] theorem answer_sweepFrequency (s : State) (out : List Frame) : (answer out s).sweepFrequency = s.sweepFrequency := rfl
@[simp] theorem answer_sweepTimer (s : State) (out : List Frame) : (answer out s).sweepTimer = s.sweepTimer := rfl
@[simp] theorem answer_modulationCounter (s : State) (out : List Frame) : (answer out s).modulationCounter = s.modulationCounter := rfl
@[simp] theorem answer_modulationPhase (s : State) (out : List Frame) : (answer out s).modulationPhase = s.modulationPhase := rfl
@[simp] theorem answer_modulationLock (s : State) (out : List Frame) : (answer out s).modulationLock = s.modulationLock := rfl
@[simp] theorem answer_noiseShift (s : State) (out : List Frame) : (answer out s).noiseShift = s.noiseShift := rfl
@[simp] theorem answer_lastSynthesizedCycle (s : State) (out : List Frame) : (answer out s).lastSynthesizedCycle = s.lastSynthesizedCycle := rfl
@[simp] theorem answer_effectDivider (s : State) (out : List Frame) : (answer out s).effectDivider = s.effectDivider := rfl
@[simp] theorem answer_shutoffDivider (s : State) (out : List Frame) : (answer out s).shutoffDivider = s.shutoffDivider := rfl
@[simp] theorem answer_envelopeDivider (s : State) (out : List Frame) : (answer out s).envelopeDivider = s.envelopeDivider := rfl
@[simp] theorem answer_dcOffset (s : State) (out : List Frame) : (answer out s).dcOffset = s.dcOffset := rfl
@[simp] theorem answer_buf (s : State) (out : List Frame) : (answer out s).buf = s.buf := rfl
@[simp] theorem answer_ready (s : State) (out : List Frame) : (answer out s).ready = s.ready := rfl
@[simp] theorem answer_prodCursor (s : State) (out : List Frame) : (answer out s).prodCursor = s.prodCursor := rfl
@[simp] theorem answer_fillPos (s : State) (out : List Frame) : (answer out s).fillPos = s.fillPos := rfl
@[simp] theorem answer_consCursor (s : State) (out : List Frame) : (answer out s).consCursor = s.consCursor := rfl
@[simp] theorem answer_muted (s : State) (out : List Frame) : (answer out s).muted = s.muted := rfl
@[simp] theorem answer_paused (s : State) (out : List Frame) : (answer out s).paused = s.paused := rfl
@[simp] theorem answer_pending (s : State) (out : List Frame) : (answer out s).pending = s.pending := rfl

@[simp] theorem answer_returned (s : State) (out : List Frame) : (answer out s).returned = some out := rfl

@[simp] theorem storeFrame_cfg (s : State) (f : Frame) : (storeFrame f s).cfg = s.cfg := rfl
@[simp] theorem storeFrame_chan (s : State) (f : Frame) : (storeFrame f s).chan = s.chan := rfl
@[simp] theorem storeFrame_ram (s : State) (f : Frame) : (storeFrame f s).ram = s.ram := rfl
@[simp] theorem storeFrame_swp (s : State) (f : Frame) : (storeFrame f s).swp = s.swp := rfl
@[simp] theorem storeFrame_mem (s : State) (f : Frame) : (storeFrame f s).mem = s.mem := rfl
@[simp] theorem storeFrame_samplePhase (s : State) (f : Frame) : (storeFrame f s).samplePhase = s.samplePhase := rfl
@[simp] theorem storeFrame_sweepFrequency (s : State) (f : Frame) : (storeFrame f s).sweepFrequency = s.sweepFrequency := rfl
@[simp] theorem storeFrame_sweepTimer (s : State) (f : Frame) : (storeFrame f s).sweepTimer = s.sweepTimer := rfl
@[simp] theorem storeFrame_modulationCounter (s : State) (f : Frame) : (storeFrame f s).modulationCounter = s.modulationCounter := rfl
@[simp] theorem storeFrame_modulationPhase (s : State) (f : Frame) : (storeFrame f s).modulationPhase = s.modulationPhase := rfl
@[simp] theorem storeFrame_modulationLock (s : State) (f : Frame) : (storeFrame f s).modulationLock = s.modulationLock := rfl
@[simp] theorem storeFrame_noiseShift (s : State) (f : Frame) : (storeFrame f s).noiseShift = s.noiseShift := rfl
@[simp] theorem storeFrame_lastSynthesizedCycle (s : State) (f : Frame) : (storeFrame f s).lastSynthesizedCycle = s.lastSynthesizedCycle := rfl
@[simp] theorem storeFrame_effectDivider (s : State) (f : Frame) : (storeFrame f s).effectDivider = s.effectDivider := rfl
@[simp] theorem storeFrame_shutoffDivider (s : State) (f : Frame) : (storeFrame f s).shutoffDivider = s.shutoffDivider := rfl
@[simp] theorem storeFrame_envelopeDivider (s : State) (f : Frame) : (storeFrame f s).envelopeDivider = s.envelopeDivider := rfl
@[simp] theorem storeFrame_dcOffset (s : State) (f : Frame) : (storeFrame f s).dcOffset = s.dcOffset := rfl
@[simp] theorem storeFrame_ready (s : State) (f : Frame) : (storeFrame f s).ready = s.ready := rfl
@[simp] theorem storeFrame_prodCursor (s : State) (f : Frame) : (storeFrame f s).prodCursor = s.prodCursor := rfl
@[simp] theorem storeFrame_fillPos (s : State) (f : Frame) : (storeFrame f s).fillPos = s.fillPos := rfl
@[simp] theorem storeFrame_consCursor (s : State) (f : Frame) : (storeFrame f s).consCursor = s.consCursor := rfl
@[simp] theorem storeFrame_muted (s : State) (f : Frame) : (storeFrame f s).muted = s.muted := rfl
@[simp] theorem storeFrame_paused (s : State) (f : Frame) : (storeFrame f s).paused = s.paused := rfl
@[simp] theorem storeFrame_pending (s : State) (f : Frame) : (storeFrame f s).pending = s.pending := rfl
@[simp] theorem storeFrame_returned (s : State) (f : Frame) : (storeFrame f s).returned = s.returned := rfl

@[simp] theorem setTimer_cfg (s : State) (c : Chan) (n : Nat) : (setTimer c n s).cfg = s.cfg := rfl
@[simp] theorem setTimer_ram (s : State) (c : Chan) (n : Nat) : (setTimer c n s).ram = s.ram := rfl
@[simp] theorem setTimer_swp (s : State) (c : Chan) (n : Nat) : (setTimer c n s).swp = s.swp := rfl
@[simp] theorem setTimer_mem (s : State) (c : Chan) (n : Nat) : (setTimer c n s).mem = s.mem := rfl
@[simp] theorem setTimer_samplePhase (s : State) (c : Chan) (n : Nat) : (setTimer c n s).samplePhase = s.samplePhase := rfl
@[simp] theorem setTimer_sweepFrequency (s : State) (c : Chan) (n : Nat) : (setTimer c n s).sweepFrequency = s.sweepFrequency := rfl
@[simp] theorem setTimer_sweepTimer (s : State) (c : Chan) (n : Nat) : (setTimer c n s).sweepTimer = s.sweepTimer := rfl
@[simp] theorem setTimer_modulationCounter (s : State) (c : Chan) (n : Nat) : (setTimer c n s).modulationCounter = s.modulationCounter := rfl
@[simp] theorem setTimer_modulationPhase (s : State) (c : Chan) (n : Nat) : (setTimer c n s).modulationPhase = s.modulationPhase := rfl
@[simp] theorem setTimer_modulationLock (s : State) (c : Chan) (n : Nat) : (setTimer c n s).modulationLock = s.modulationLock := rfl
@[simp] theorem setTimer_noiseShift (s : State) (c : Chan) (n : Nat) : (setTimer c n s).noiseShift = s.noiseShift := rfl
@[simp] theorem setTimer_lastSynthesizedCycle (s : State) (c : Chan) (n : Nat) : (setTimer c n s).lastSynthesizedCycle = s.lastSynthesizedCycle := rfl
@[simp] theorem setTimer_effectDivider (s : State) (c : Chan) (n : Nat) : (setTimer c n s).effectDivider = s.effectDivider := rfl
@[simp] theorem setTimer_shutoffDivider (s : State) (c : Chan) (n : Nat) : (setTimer c n s).shutoffDivider = s.shutoffDivider := rfl
@[simp] theorem setTimer_envelopeDivider (s : State) (c : Chan) (n : Nat) : (setTimer c n s).envelopeDivider = s.envelopeDivider := rfl
@[simp] theorem setTimer_dcOffset (s : State) (c : Chan) (n : Nat) : (setTimer c n s).dcOffset = s.dcOffset := rfl
@[simp] theorem setTimer_buf (s : State) (c : Chan) (n : Nat) : (setTimer c n s).buf = s.buf := rfl
@[simp] theorem setTimer_ready (s : State) (c : Chan) (n : Nat) : (setTimer c n s).ready = s.ready := rfl
@[simp] theorem setTimer_prodCursor (s : State) (c : Chan) (n : Nat) : (setTimer c n s).prodCursor = s.prodCursor := rfl
@[simp] theorem setTimer_fillPos (s : State) (c : Chan) (n : Nat) : (setTimer c n s).fillPos = s.fillPos := rfl
@[simp] theorem setTimer_consCursor (s : State) (c : Chan) (n : Nat) : (setTimer c n s).consCursor = s.consCursor := rfl
@[simp] theorem setTimer_muted (s : State) (c : Chan) (n : Nat) : (setTimer c n s).muted = s.muted := rfl
@[simp] theorem setTimer_paused (s : State) (c : Chan) (n : Nat) : (setTimer c n s).paused = s.paused := rfl
@[simp] theorem setTimer_pending (s : State) (c : Chan) (n : Nat) : (setTimer c n s).pending = s.pending := rfl
@[simp] theorem setTimer_returned (s : State) (c : Chan) (n : Nat) : (setTimer c n s).returned = s.returned := rfl

end Sys2Proof.Machine
end

