-- ==== Sys2Proof/Laws/Channels.lean ====
section
/-! SUPPORT. Reading channels and wave phases after the updates that write them. -/

namespace Sys2Proof.Machine

@[simp] theorem ch_setCh_same (s : State) (c : Chan) (ch : Channel) : (s.setCh c ch).ch c = ch := by
  simp [State.ch]

theorem ch_setCh (s : State) (c d : Chan) (ch : Channel) :
    (s.setCh c ch).ch d = if c = d then ch else s.ch d := by
  simp [State.ch, Vector.getElem_set, Fin.ext_iff]

@[simp] theorem ch_setCh_ne (s : State) {c d : Chan} (h : c ≠ d) (ch : Channel) :
    (s.setCh c ch).ch d = s.ch d := by
  simp [ch_setCh, h]

/-- A channel depends on the vector of channels alone. -/
theorem ch_congr {s t : State} (h : s.chan = t.chan) (c : Chan) : s.ch c = t.ch c := by
  simp [State.ch, h]

/-- Two vectors of channels with the same channels are equal. -/
theorem chan_ext {s t : State} (h : ∀ c, s.ch c = t.ch c) : s.chan = t.chan := by
  apply Vector.ext
  intro i hi
  exact h ⟨i, hi⟩

/-- `mapChannels` is the library's map. -/
theorem mapChannels_eq (f : Channel → Channel) (v : Vector Channel 6) : mapChannels f v = v.map f := by
  apply Vector.ext
  intro i hi
  rw [Vector.getElem_map]
  match i, hi with
  | 0, _ => rfl
  | 1, _ => rfl
  | 2, _ => rfl
  | 3, _ => rfl
  | 4, _ => rfl
  | 5, _ => rfl

@[simp] theorem ch_map (s : State) (f : Channel → Channel) (c : Chan) :
    State.ch { s with chan := mapChannels f s.chan } c = f (s.ch c) := by
  simp [State.ch, mapChannels_eq]

@[simp] theorem phase_setPhase_same (s : State) (c : Chan) (p : Entry) (h : c ≠ chNoise) :
    (s.setPhase c p).phase c = p := by
  have hc : c.val < 5 := by
    have : c.val ≠ 5 := fun e => h (Fin.ext e)
    omega
  simp [State.phase, State.setPhase, hc]

@[simp] theorem phase_setPhase_ne (s : State) {c d : Chan} (h : c ≠ d) (p : Entry) :
    (s.setPhase c p).phase d = s.phase d := by
  have h' : c.val ≠ d.val := fun e => h (Fin.ext e)
  unfold State.setPhase
  split
  · simp [State.phase, h']
  · rfl

@[simp] theorem ch_setPhase (s : State) (c d : Chan) (p : Entry) : (s.setPhase c p).ch d = s.ch d := by
  simp [State.ch]

@[simp] theorem phase_setCh (s : State) (c d : Chan) (ch : Channel) : (s.setCh c ch).phase d = s.phase d := rfl

/-- The noise channel has no phase to set (rule R32). -/
@[simp] theorem setPhase_noise (s : State) (p : Entry) : s.setPhase chNoise p = s := rfl

@[simp] theorem ch_setTimer_same (s : State) (c : Chan) (n : Nat) :
    (setTimer c n s).ch c = { s.ch c with frequencyTimer := n } := by
  simp [setTimer]

@[simp] theorem ch_setTimer_ne (s : State) {c d : Chan} (h : c ≠ d) (n : Nat) :
    (setTimer c n s).ch d = s.ch d := by
  simp [setTimer, h]

@[simp] theorem phase_setTimer (s : State) (c d : Chan) (n : Nat) :
    (setTimer c n s).phase d = s.phase d := rfl

end Sys2Proof.Machine
end

