-- ==== Sys2Proof/Laws/Frames.lean ====
section
/-! SUPPORT. What each stage of synthesis leaves alone, field by field (rules R161, R191, R209). -/

namespace Sys2Proof.Machine

@[simp] theorem sweepCheck_cfg (s : State) : (sweepCheck s).cfg = s.cfg := by
  unfold sweepCheck; try dsimp only
  (repeat' split) <;> simp
@[simp] theorem sweepCheck_ram (s : State) : (sweepCheck s).ram = s.ram := by
  unfold sweepCheck; try dsimp only
  (repeat' split) <;> simp
@[simp] theorem sweepCheck_swp (s : State) : (sweepCheck s).swp = s.swp := by
  unfold sweepCheck; try dsimp only
  (repeat' split) <;> simp
@[simp] theorem sweepCheck_mem (s : State) : (sweepCheck s).mem = s.mem := by
  unfold sweepCheck; try dsimp only
  (repeat' split) <;> simp
@[simp] theorem sweepCheck_samplePhase (s : State) : (sweepCheck s).samplePhase = s.samplePhase := by
  unfold sweepCheck; try dsimp only
  (repeat' split) <;> simp
@[simp] theorem sweepCheck_sweepFrequency (s : State) : (sweepCheck s).sweepFrequency = s.sweepFrequency := by
  unfold sweepCheck; try dsimp only
  (repeat' split) <;> simp
@[simp] theorem sweepCheck_sweepTimer (s : State) : (sweepCheck s).sweepTimer = s.sweepTimer := by
  unfold sweepCheck; try dsimp only
  (repeat' split) <;> simp
@[simp] theorem sweepCheck_modulationCounter (s : State) : (sweepCheck s).modulationCounter = s.modulationCounter := by
  unfold sweepCheck; try dsimp only
  (repeat' split) <;> simp
@[simp] theorem sweepCheck_modulationPhase (s : State) : (sweepCheck s).modulationPhase = s.modulationPhase := by
  unfold sweepCheck; try dsimp only
  (repeat' split) <;> simp
@[simp] theorem sweepCheck_modulationLock (s : State) : (sweepCheck s).modulationLock = s.modulationLock := by
  unfold sweepCheck; try dsimp only
  (repeat' split) <;> simp
@[simp] theorem sweepCheck_noiseShift (s : State) : (sweepCheck s).noiseShift = s.noiseShift := by
  unfold sweepCheck; try dsimp only
  (repeat' split) <;> simp
@[simp] theorem sweepCheck_lastSynthesizedCycle (s : State) : (sweepCheck s).lastSynthesizedCycle = s.lastSynthesizedCycle := by
  unfold sweepCheck; try dsimp only
  (repeat' split) <;> simp
@[simp] theorem sweepCheck_effectDivider (s : State) : (sweepCheck s).effectDivider = s.effectDivider := by
  unfold sweepCheck; try dsimp only
  (repeat' split) <;> simp
@[simp] theorem sweepCheck_shutoffDivider (s : State) : (sweepCheck s).shutoffDivider = s.shutoffDivider := by
  unfold sweepCheck; try dsimp only
  (repeat' split) <;> simp
@[simp] theorem sweepCheck_envelopeDivider (s : State) : (sweepCheck s).envelopeDivider = s.envelopeDivider := by
  unfold sweepCheck; try dsimp only
  (repeat' split) <;> simp
@[simp] theorem sweepCheck_dcOffset (s : State) : (sweepCheck s).dcOffset = s.dcOffset := by
  unfold sweepCheck; try dsimp only
  (repeat' split) <;> simp
@[simp] theorem sweepCheck_buf (s : State) : (sweepCheck s).buf = s.buf := by
  unfold sweepCheck; try dsimp only
  (repeat' split) <;> simp
@[simp] theorem sweepCheck_ready (s : State) : (sweepCheck s).ready = s.ready := by
  unfold sweepCheck; try dsimp only
  (repeat' split) <;> simp
@[simp] theorem sweepCheck_prodCursor (s : State) : (sweepCheck s).prodCursor = s.prodCursor := by
  unfold sweepCheck; try dsimp only
  (repeat' split) <;> simp
@[simp] theorem sweepCheck_fillPos (s : State) : (sweepCheck s).fillPos = s.fillPos := by
  unfold sweepCheck; try dsimp only
  (repeat' split) <;> simp
@[simp] theorem sweepCheck_consCursor (s : State) : (sweepCheck s).consCursor = s.consCursor := by
  unfold sweepCheck; try dsimp only
  (repeat' split) <;> simp
@[simp] theorem sweepCheck_muted (s : State) : (sweepCheck s).muted = s.muted := by
  unfold sweepCheck; try dsimp only
  (repeat' split) <;> simp
@[simp] theorem sweepCheck_paused (s : State) : (sweepCheck s).paused = s.paused := by
  unfold sweepCheck; try dsimp only
  (repeat' split) <;> simp
@[simp] theorem sweepCheck_pending (s : State) : (sweepCheck s).pending = s.pending := by
  unfold sweepCheck; try dsimp only
  (repeat' split) <;> simp
@[simp] theorem sweepCheck_returned (s : State) : (sweepCheck s).returned = s.returned := by
  unfold sweepCheck; try dsimp only
  (repeat' split) <;> simp

@[simp] theorem expiryFrequency_cfg (s : State) : (expiryFrequency s).cfg = s.cfg := by
  unfold expiryFrequency; try dsimp only
  (repeat' split) <;> simp
@[simp] theorem expiryFrequency_chan (s : State) : (expiryFrequency s).chan = s.chan := by
  unfold expiryFrequency; try dsimp only
  (repeat' split) <;> simp
@[simp] theorem expiryFrequency_ram (s : State) : (expiryFrequency s).ram = s.ram := by
  unfold expiryFrequency; try dsimp only
  (repeat' split) <;> simp
@[simp] theorem expiryFrequency_swp (s : State) : (expiryFrequency s).swp = s.swp := by
  unfold expiryFrequency; try dsimp only
  (repeat' split) <;> simp
@[simp] theorem expiryFrequency_mem (s : State) : (expiryFrequency s).mem = s.mem := by
  unfold expiryFrequency; try dsimp only
  (repeat' split) <;> simp
@[simp] theorem expiryFrequency_samplePhase (s : State) : (expiryFrequency s).samplePhase = s.samplePhase := by
  unfold expiryFrequency; try dsimp only
  (repeat' split) <;> simp
@[simp] theorem expiryFrequency_sweepTimer (s : State) : (expiryFrequency s).sweepTimer = s.sweepTimer := by
  unfold expiryFrequency; try dsimp only
  (repeat' split) <;> simp
@[simp] theorem expiryFrequency_modulationCounter (s : State) : (expiryFrequency s).modulationCounter = s.modulationCounter := by
  unfold expiryFrequency; try dsimp only
  (repeat' split) <;> simp
@[simp] theorem expiryFrequency_modulationPhase (s : State) : (expiryFrequency s).modulationPhase = s.modulationPhase := by
  unfold expiryFrequency; try dsimp only
  (repeat' split) <;> simp
@[simp] theorem expiryFrequency_modulationLock (s : State) : (expiryFrequency s).modulationLock = s.modulationLock := by
  unfold expiryFrequency; try dsimp only
  (repeat' split) <;> simp
@[simp] theorem expiryFrequency_noiseShift (s : State) : (expiryFrequency s).noiseShift = s.noiseShift := by
  unfold expiryFrequency; try dsimp only
  (repeat' split) <;> simp
@[simp] theorem expiryFrequency_lastSynthesizedCycle (s : State) : (expiryFrequency s).lastSynthesizedCycle = s.lastSynthesizedCycle := by
  unfold expiryFrequency; try dsimp only
  (repeat' split) <;> simp
@[simp] theorem expiryFrequency_effectDivider (s : State) : (expiryFrequency s).effectDivider = s.effectDivider := by
  unfold expiryFrequency; try dsimp only
  (repeat' split) <;> simp
@[simp] theorem expiryFrequency_shutoffDivider (s : State) : (expiryFrequency s).shutoffDivider = s.shutoffDivider := by
  unfold expiryFrequency; try dsimp only
  (repeat' split) <;> simp
@[simp] theorem expiryFrequency_envelopeDivider (s : State) : (expiryFrequency s).envelopeDivider = s.envelopeDivider := by
  unfold expiryFrequency; try dsimp only
  (repeat' split) <;> simp
@[simp] theorem expiryFrequency_dcOffset (s : State) : (expiryFrequency s).dcOffset = s.dcOffset := by
  unfold expiryFrequency; try dsimp only
  (repeat' split) <;> simp
@[simp] theorem expiryFrequency_buf (s : State) : (expiryFrequency s).buf = s.buf := by
  unfold expiryFrequency; try dsimp only
  (repeat' split) <;> simp
@[simp] theorem expiryFrequency_ready (s : State) : (expiryFrequency s).ready = s.ready := by
  unfold expiryFrequency; try dsimp only
  (repeat' split) <;> simp
@[simp] theorem expiryFrequency_prodCursor (s : State) : (expiryFrequency s).prodCursor = s.prodCursor := by
  unfold expiryFrequency; try dsimp only
  (repeat' split) <;> simp
@[simp] theorem expiryFrequency_fillPos (s : State) : (expiryFrequency s).fillPos = s.fillPos := by
  unfold expiryFrequency; try dsimp only
  (repeat' split) <;> simp
@[simp] theorem expiryFrequency_consCursor (s : State) : (expiryFrequency s).consCursor = s.consCursor := by
  unfold expiryFrequency; try dsimp only
  (repeat' split) <;> simp
@[simp] theorem expiryFrequency_muted (s : State) : (expiryFrequency s).muted = s.muted := by
  unfold expiryFrequency; try dsimp only
  (repeat' split) <;> simp
@[simp] theorem expiryFrequency_paused (s : State) : (expiryFrequency s).paused = s.paused := by
  unfold expiryFrequency; try dsimp only
  (repeat' split) <;> simp
@[simp] theorem expiryFrequency_pending (s : State) : (expiryFrequency s).pending = s.pending := by
  unfold expiryFrequency; try dsimp only
  (repeat' split) <;> simp
@[simp] theorem expiryFrequency_returned (s : State) : (expiryFrequency s).returned = s.returned := by
  unfold expiryFrequency; try dsimp only
  (repeat' split) <;> simp

@[simp] theorem expiryCounter_cfg (s : State) : (expiryCounter s).cfg = s.cfg := rfl
@[simp] theorem expiryCounter_chan (s : State) : (expiryCounter s).chan = s.chan := rfl
@[simp] theorem expiryCounter_ram (s : State) : (expiryCounter s).ram = s.ram := rfl
@[simp] theorem expiryCounter_swp (s : State) : (expiryCounter s).swp = s.swp := rfl
@[simp] theorem expiryCounter_mem (s : State) : (expiryCounter s).mem = s.mem := rfl
@[simp] theorem expiryCounter_samplePhase (s : State) : (expiryCounter s).samplePhase = s.samplePhase := rfl
@[simp] theorem expiryCounter_sweepFrequency (s : State) : (expiryCounter s).sweepFrequency = s.sweepFrequency := rfl
@[simp] theorem expiryCounter_sweepTimer (s : State) : (expiryCounter s).sweepTimer = s.sweepTimer := rfl
@[simp] theorem expiryCounter_modulationLock (s : State) : (expiryCounter s).modulationLock = s.modulationLock := rfl
@[simp] theorem expiryCounter_noiseShift (s : State) : (expiryCounter s).noiseShift = s.noiseShift := rfl
@[simp] theorem expiryCounter_lastSynthesizedCycle (s : State) : (expiryCounter s).lastSynthesizedCycle = s.lastSynthesizedCycle := rfl
@[simp] theorem expiryCounter_effectDivider (s : State) : (expiryCounter s).effectDivider = s.effectDivider := rfl
@[simp] theorem expiryCounter_shutoffDivider (s : State) : (expiryCounter s).shutoffDivider = s.shutoffDivider := rfl
@[simp] theorem expiryCounter_envelopeDivider (s : State) : (expiryCounter s).envelopeDivider = s.envelopeDivider := rfl
@[simp] theorem expiryCounter_dcOffset (s : State) : (expiryCounter s).dcOffset = s.dcOffset := rfl
@[simp] theorem expiryCounter_buf (s : State) : (expiryCounter s).buf = s.buf := rfl
@[simp] theorem expiryCounter_ready (s : State) : (expiryCounter s).ready = s.ready := rfl
@[simp] theorem expiryCounter_prodCursor (s : State) : (expiryCounter s).prodCursor = s.prodCursor := rfl
@[simp] theorem expiryCounter_fillPos (s : State) : (expiryCounter s).fillPos = s.fillPos := rfl
@[simp] theorem expiryCounter_consCursor (s : State) : (expiryCounter s).consCursor = s.consCursor := rfl
@[simp] theorem expiryCounter_muted (s : State) : (expiryCounter s).muted = s.muted := rfl
@[simp] theorem expiryCounter_paused (s : State) : (expiryCounter s).paused = s.paused := rfl
@[simp] theorem expiryCounter_pending (s : State) : (expiryCounter s).pending = s.pending := rfl
@[simp] theorem expiryCounter_returned (s : State) : (expiryCounter s).returned = s.returned := rfl

@[simp] theorem intervalStep_cfg (s : State) : (intervalStep s).cfg = s.cfg := by
  unfold intervalStep; try dsimp only
  (repeat' split) <;> simp
@[simp] theorem intervalStep_chan (s : State) : (intervalStep s).chan = s.chan := by
  unfold intervalStep; try dsimp only
  (repeat' split) <;> simp
@[simp] theorem intervalStep_ram (s : State) : (intervalStep s).ram = s.ram := by
  unfold intervalStep; try dsimp only
  (repeat' split) <;> simp
@[simp] theorem intervalStep_swp (s : State) : (intervalStep s).swp = s.swp := by
  unfold intervalStep; try dsimp only
  (repeat' split) <;> simp
@[simp] theorem intervalStep_mem (s : State) : (intervalStep s).mem = s.mem := by
  unfold intervalStep; try dsimp only
  (repeat' split) <;> simp
@[simp] theorem intervalStep_samplePhase (s : State) : (intervalStep s).samplePhase = s.samplePhase := by
  unfold intervalStep; try dsimp only
  (repeat' split) <;> simp
@[simp] theorem intervalStep_modulationLock (s : State) : (intervalStep s).modulationLock = s.modulationLock := by
  unfold intervalStep; try dsimp only
  (repeat' split) <;> simp
@[simp] theorem intervalStep_noiseShift (s : State) : (intervalStep s).noiseShift = s.noiseShift := by
  unfold intervalStep; try dsimp only
  (repeat' split) <;> simp
@[simp] theorem intervalStep_lastSynthesizedCycle (s : State) : (intervalStep s).lastSynthesizedCycle = s.lastSynthesizedCycle := by
  unfold intervalStep; try dsimp only
  (repeat' split) <;> simp
@[simp] theorem intervalStep_effectDivider (s : State) : (intervalStep s).effectDivider = s.effectDivider := by
  unfold intervalStep; try dsimp only
  (repeat' split) <;> simp
@[simp] theorem intervalStep_shutoffDivider (s : State) : (intervalStep s).shutoffDivider = s.shutoffDivider := by
  unfold intervalStep; try dsimp only
  (repeat' split) <;> simp
@[simp] theorem intervalStep_envelopeDivider (s : State) : (intervalStep s).envelopeDivider = s.envelopeDivider := by
  unfold intervalStep; try dsimp only
  (repeat' split) <;> simp
@[simp] theorem intervalStep_dcOffset (s : State) : (intervalStep s).dcOffset = s.dcOffset := by
  unfold intervalStep; try dsimp only
  (repeat' split) <;> simp
@[simp] theorem intervalStep_buf (s : State) : (intervalStep s).buf = s.buf := by
  unfold intervalStep; try dsimp only
  (repeat' split) <;> simp
@[simp] theorem intervalStep_ready (s : State) : (intervalStep s).ready = s.ready := by
  unfold intervalStep; try dsimp only
  (repeat' split) <;> simp
@[simp] theorem intervalStep_prodCursor (s : State) : (intervalStep s).prodCursor = s.prodCursor := by
  unfold intervalStep; try dsimp only
  (repeat' split) <;> simp
@[simp] theorem intervalStep_fillPos (s : State) : (intervalStep s).fillPos = s.fillPos := by
  unfold intervalStep; try dsimp only
  (repeat' split) <;> simp
@[simp] theorem intervalStep_consCursor (s : State) : (intervalStep s).consCursor = s.consCursor := by
  unfold intervalStep; try dsimp only
  (repeat' split) <;> simp
@[simp] theorem intervalStep_muted (s : State) : (intervalStep s).muted = s.muted := by
  unfold intervalStep; try dsimp only
  (repeat' split) <;> simp
@[simp] theorem intervalStep_paused (s : State) : (intervalStep s).paused = s.paused := by
  unfold intervalStep; try dsimp only
  (repeat' split) <;> simp
@[simp] theorem intervalStep_pending (s : State) : (intervalStep s).pending = s.pending := by
  unfold intervalStep; try dsimp only
  (repeat' split) <;> simp
@[simp] theorem intervalStep_returned (s : State) : (intervalStep s).returned = s.returned := by
  unfold intervalStep; try dsimp only
  (repeat' split) <;> simp

@[simp] theorem sweepModStage_cfg (s : State) : (sweepModStage s).cfg = s.cfg := by
  unfold sweepModStage; try dsimp only
  (repeat' split) <;> simp
@[simp] theorem sweepModStage_ram (s : State) : (sweepModStage s).ram = s.ram := by
  unfold sweepModStage; try dsimp only
  (repeat' split) <;> simp
@[simp] theorem sweepModStage_swp (s : State) : (sweepModStage s).swp = s.swp := by
  unfold sweepModStage; try dsimp only
  (repeat' split) <;> simp
@[simp] theorem sweepModStage_mem (s : State) : (sweepModStage s).mem = s.mem := by
  unfold sweepModStage; try dsimp only
  (repeat' split) <;> simp
@[simp] theorem sweepModStage_samplePhase (s : State) : (sweepModStage s).samplePhase = s.samplePhase := by
  unfold sweepModStage; try dsimp only
  (repeat' split) <;> simp
@[simp] theorem sweepModStage_modulationLock (s : State) : (sweepModStage s).modulationLock = s.modulationLock := by
  unfold sweepModStage; try dsimp only
  (repeat' split) <;> simp
@[simp] theorem sweepModStage_noiseShift (s : State) : (sweepModStage s).noiseShift = s.noiseShift := by
  unfold sweepModStage; try dsimp only
  (repeat' split) <;> simp
@[simp] theorem sweepModStage_lastSynthesizedCycle (s : State) : (sweepModStage s).lastSynthesizedCycle = s.lastSynthesizedCycle := by
  unfold sweepModStage; try dsimp only
  (repeat' split) <;> simp
@[simp] theorem sweepModStage_effectDivider (s : State) : (sweepModStage s).effectDivider = s.effectDivider := by
  unfold sweepModStage; try dsimp only
  (repeat' split) <;> simp
@[simp] theorem sweepModStage_shutoffDivider (s : State) : (sweepModStage s).shutoffDivider = s.shutoffDivider := by
  unfold sweepModStage; try dsimp only
  (repeat' split) <;> simp
@[simp] theorem sweepModStage_envelopeDivider (s : State) : (sweepModStage s).envelopeDivider = s.envelopeDivider := by
  unfold sweepModStage; try dsimp only
  (repeat' split) <;> simp
@[simp] theorem sweepModStage_dcOffset (s : State) : (sweepModStage s).dcOffset = s.dcOffset := by
  unfold sweepModStage; try dsimp only
  (repeat' split) <;> simp
@[simp] theorem sweepModStage_buf (s : State) : (sweepModStage s).buf = s.buf := by
  unfold sweepModStage; try dsimp only
  (repeat' split) <;> simp
@[simp] theorem sweepModStage_ready (s : State) : (sweepModStage s).ready = s.ready := by
  unfold sweepModStage; try dsimp only
  (repeat' split) <;> simp
@[simp] theorem sweepModStage_prodCursor (s : State) : (sweepModStage s).prodCursor = s.prodCursor := by
  unfold sweepModStage; try dsimp only
  (repeat' split) <;> simp
@[simp] theorem sweepModStage_fillPos (s : State) : (sweepModStage s).fillPos = s.fillPos := by
  unfold sweepModStage; try dsimp only
  (repeat' split) <;> simp
@[simp] theorem sweepModStage_consCursor (s : State) : (sweepModStage s).consCursor = s.consCursor := by
  unfold sweepModStage; try dsimp only
  (repeat' split) <;> simp
@[simp] theorem sweepModStage_muted (s : State) : (sweepModStage s).muted = s.muted := by
  unfold sweepModStage; try dsimp only
  (repeat' split) <;> simp
@[simp] theorem sweepModStage_paused (s : State) : (sweepModStage s).paused = s.paused := by
  unfold sweepModStage; try dsimp only
  (repeat' split) <;> simp
@[simp] theorem sweepModStage_pending (s : State) : (sweepModStage s).pending = s.pending := by
  unfold sweepModStage; try dsimp only
  (repeat' split) <;> simp
@[simp] theorem sweepModStage_returned (s : State) : (sweepModStage s).returned = s.returned := by
  unfold sweepModStage; try dsimp only
  (repeat' split) <;> simp

@[simp] theorem shutoffStage_cfg (s : State) : (shutoffStage s).cfg = s.cfg := rfl
@[simp] theorem shutoffStage_ram (s : State) : (shutoffStage s).ram = s.ram := rfl
@[simp] theorem shutoffStage_swp (s : State) : (shutoffStage s).swp = s.swp := rfl
@[simp] theorem shutoffStage_mem (s : State) : (shutoffStage s).mem = s.mem := rfl
@[simp] theorem shutoffStage_samplePhase (s : State) : (shutoffStage s).samplePhase = s.samplePhase := rfl
@[simp] theorem shutoffStage_sweepFrequency (s : State) : (shutoffStage s).sweepFrequency = s.sweepFrequency := rfl
@[simp] theorem shutoffStage_sweepTimer (s : State) : (shutoffStage s).sweepTimer = s.sweepTimer := rfl
@[simp] theorem shutoffStage_modulationCounter (s : State) : (shutoffStage s).modulationCounter = s.modulationCounter := rfl
@[simp] theorem shutoffStage_modulationPhase (s : State) : (shutoffStage s).modulationPhase = s.modulationPhase := rfl
@[simp] theorem shutoffStage_modulationLock (s : State) : (shutoffStage s).modulationLock = s.modulationLock := rfl
@[simp] theorem shutoffStage_noiseShift (s : State) : (shutoffStage s).noiseShift = s.noiseShift := rfl
@[simp] theorem shutoffStage_lastSynthesizedCycle (s : State) : (shutoffStage s).lastSynthesizedCycle = s.lastSynthesizedCycle := rfl
@[simp] theorem shutoffStage_effectDivider (s : State) : (shutoffStage s).effectDivider = s.effectDivider := rfl
@[simp] theorem shutoffStage_shutoffDivider (s : State) : (shutoffStage s).shutoffDivider = s.shutoffDivider := rfl
@[simp] theorem shutoffStage_envelopeDivider (s : State) : (shutoffStage s).envelopeDivider = s.envelopeDivider := rfl
@[simp] theorem shutoffStage_dcOffset (s : State) : (shutoffStage s).dcOffset = s.dcOffset := rfl
@[simp] theorem shutoffStage_buf (s : State) : (shutoffStage s).buf = s.buf := rfl
@[simp] theorem shutoffStage_ready (s : State) : (shutoffStage s).ready = s.ready := rfl
@[simp] theorem shutoffStage_prodCursor (s : State) : (shutoffStage s).prodCursor = s.prodCursor := rfl
@[simp] theorem shutoffStage_fillPos (s : State) : (shutoffStage s).fillPos = s.fillPos := rfl
@[simp] theorem shutoffStage_consCursor (s : State) : (shutoffStage s).consCursor = s.consCursor := rfl
@[simp] theorem shutoffStage_muted (s : State) : (shutoffStage s).muted = s.muted := rfl
@[simp] theorem shutoffStage_paused (s : State) : (shutoffStage s).paused = s.paused := rfl
@[simp] theorem shutoffStage_pending (s : State) : (shutoffStage s).pending = s.pending := rfl
@[simp] theorem shutoffStage_returned (s : State) : (shutoffStage s).returned = s.returned := rfl

@[simp] theorem envelopeStage_cfg (s : State) : (envelopeStage s).cfg = s.cfg := rfl
@[simp] theorem envelopeStage_ram (s : State) : (envelopeStage s).ram = s.ram := rfl
@[simp] theorem envelopeStage_swp (s : State) : (envelopeStage s).swp = s.swp := rfl
@[simp] theorem envelopeStage_mem (s : State) : (envelopeStage s).mem = s.mem := rfl
@[simp] theorem envelopeStage_samplePhase (s : State) : (envelopeStage s).samplePhase = s.samplePhase := rfl
@[simp] theorem envelopeStage_sweepFrequency (s : State) : (envelopeStage s).sweepFrequency = s.sweepFrequency := rfl
@[simp] theorem envelopeStage_sweepTimer (s : State) : (envelopeStage s).sweepTimer = s.sweepTimer := rfl
@[simp] theorem envelopeStage_modulationCounter (s : State) : (envelopeStage s).modulationCounter = s.modulationCounter := rfl
@[simp] theorem envelopeStage_modulationPhase (s : State) : (envelopeStage s).modulationPhase = s.modulationPhase := rfl
@[simp] theorem envelopeStage_modulationLock (s : State) : (envelopeStage s).modulationLock = s.modulationLock := rfl
@[simp] theorem envelopeStage_noiseShift (s : State) : (envelopeStage s).noiseShift = s.noiseShift := rfl
@[simp] theorem envelopeStage_lastSynthesizedCycle (s : State) : (envelopeStage s).lastSynthesizedCycle = s.lastSynthesizedCycle := rfl
@[simp] theorem envelopeStage_effectDivider (s : State) : (envelopeStage s).effectDivider = s.effectDivider := rfl
@[simp] theorem envelopeStage_shutoffDivider (s : State) : (envelopeStage s).shutoffDivider = s.shutoffDivider := rfl
@[simp] theorem envelopeStage_envelopeDivider (s : State) : (envelopeStage s).envelopeDivider = s.envelopeDivider := rfl
@[simp] theorem envelopeStage_dcOffset (s : State) : (envelopeStage s).dcOffset = s.dcOffset := rfl
@[simp] theorem envelopeStage_buf (s : State) : (envelopeStage s).buf = s.buf := rfl
@[simp] theorem envelopeStage_ready (s : State) : (envelopeStage s).ready = s.ready := rfl
@[simp] theorem envelopeStage_prodCursor (s : State) : (envelopeStage s).prodCursor = s.prodCursor := rfl
@[simp] theorem envelopeStage_fillPos (s : State) : (envelopeStage s).fillPos = s.fillPos := rfl
@[simp] theorem envelopeStage_consCursor (s : State) : (envelopeStage s).consCursor = s.consCursor := rfl
@[simp] theorem envelopeStage_muted (s : State) : (envelopeStage s).muted = s.muted := rfl
@[simp] theorem envelopeStage_paused (s : State) : (envelopeStage s).paused = s.paused := rfl
@[simp] theorem envelopeStage_pending (s : State) : (envelopeStage s).pending = s.pending := rfl
@[simp] theorem envelopeStage_returned (s : State) : (envelopeStage s).returned = s.returned := rfl

@[simp] theorem envelopeCascade_cfg (s : State) : (envelopeCascade s).cfg = s.cfg := by
  unfold envelopeCascade; try dsimp only
  (repeat' split) <;> simp
@[simp] theorem envelopeCascade_ram (s : State) : (envelopeCascade s).ram = s.ram := by
  unfold envelopeCascade; try dsimp only
  (repeat' split) <;> simp
@[simp] theorem envelopeCascade_swp (s : State) : (envelopeCascade s).swp = s.swp := by
  unfold envelopeCascade; try dsimp only
  (repeat' split) <;> simp
@[simp] theorem envelopeCascade_mem (s : State) : (envelopeCascade s).mem = s.mem := by
  unfold envelopeCascade; try dsimp only
  (repeat' split) <;> simp
@[simp] theorem envelopeCascade_samplePhase (s : State) : (envelopeCascade s).samplePhase = s.samplePhase := by
  unfold envelopeCascade; try dsimp only
  (repeat' split) <;> simp
@[simp] theorem envelopeCascade_sweepFrequency (s : State) : (envelopeCascade s).sweepFrequency = s.sweepFrequency := by
  unfold envelopeCascade; try dsimp only
  (repeat' split) <;> simp
@[simp] theorem envelopeCascade_sweepTimer (s : State) : (envelopeCascade s).sweepTimer = s.sweepTimer := by
  unfold envelopeCascade; try dsimp only
  (repeat' split) <;> simp
@[simp] theorem envelopeCascade_modulationCounter (s : State) : (envelopeCascade s).modulationCounter = s.modulationCounter := by
  unfold envelopeCascade; try dsimp only
  (repeat' split) <;> simp
@[simp] theorem envelopeCascade_modulationPhase (s : State) : (envelopeCascade s).modulationPhase = s.modulationPhase := by
  unfold envelopeCascade; try dsimp only
  (repeat' split) <;> simp
@[simp] theorem envelopeCascade_modulationLock (s : State) : (envelopeCascade s).modulationLock = s.modulationLock := by
  unfold envelopeCascade; try dsimp only
  (repeat' split) <;> simp
@[simp] theorem envelopeCascade_noiseShift (s : State) : (envelopeCascade s).noiseShift = s.noiseShift := by
  unfold envelopeCascade; try dsimp only
  (repeat' split) <;> simp
@[simp] theorem envelopeCascade_lastSynthesizedCycle (s : State) : (envelopeCascade s).lastSynthesizedCycle = s.lastSynthesizedCycle := by
  unfold envelopeCascade; try dsimp only
  (repeat' split) <;> simp
@[simp] theorem envelopeCascade_effectDivider (s : State) : (envelopeCascade s).effectDivider = s.effectDivider := by
  unfold envelopeCascade; try dsimp only
  (repeat' split) <;> simp
@[simp] theorem envelopeCascade_shutoffDivider (s : State) : (envelopeCascade s).shutoffDivider = s.shutoffDivider := by
  unfold envelopeCascade; try dsimp only
  (repeat' split) <;> simp
@[simp] theorem envelopeCascade_dcOffset (s : State) : (envelopeCascade s).dcOffset = s.dcOffset := by
  unfold envelopeCascade; try dsimp only
  (repeat' split) <;> simp
@[simp] theorem envelopeCascade_buf (s : State) : (envelopeCascade s).buf = s.buf := by
  unfold envelopeCascade; try dsimp only
  (repeat' split) <;> simp
@[simp] theorem envelopeCascade_ready (s : State) : (envelopeCascade s).ready = s.ready := by
  unfold envelopeCascade; try dsimp only
  (repeat' split) <;> simp
@[simp] theorem envelopeCascade_prodCursor (s : State) : (envelopeCascade s).prodCursor = s.prodCursor := by
  unfold envelopeCascade; try dsimp only
  (repeat' split) <;> simp
@[simp] theorem envelopeCascade_fillPos (s : State) : (envelopeCascade s).fillPos = s.fillPos := by
  unfold envelopeCascade; try dsimp only
  (repeat' split) <;> simp
@[simp] theorem envelopeCascade_consCursor (s : State) : (envelopeCascade s).consCursor = s.consCursor := by
  unfold envelopeCascade; try dsimp only
  (repeat' split) <;> simp
@[simp] theorem envelopeCascade_muted (s : State) : (envelopeCascade s).muted = s.muted := by
  unfold envelopeCascade; try dsimp only
  (repeat' split) <;> simp
@[simp] theorem envelopeCascade_paused (s : State) : (envelopeCascade s).paused = s.paused := by
  unfold envelopeCascade; try dsimp only
  (repeat' split) <;> simp
@[simp] theorem envelopeCascade_pending (s : State) : (envelopeCascade s).pending = s.pending := by
  unfold envelopeCascade; try dsimp only
  (repeat' split) <;> simp
@[simp] theorem envelopeCascade_returned (s : State) : (envelopeCascade s).returned = s.returned := by
  unfold envelopeCascade; try dsimp only
  (repeat' split) <;> simp

@[simp] theorem shutoffCascade_cfg (s : State) : (shutoffCascade s).cfg = s.cfg := by
  unfold shutoffCascade; try dsimp only
  (repeat' split) <;> simp
@[simp] theorem shutoffCascade_ram (s : State) : (shutoffCascade s).ram = s.ram := by
  unfold shutoffCascade; try dsimp only
  (repeat' split) <;> simp
@[simp] theorem shutoffCascade_swp (s : State) : (shutoffCascade s).swp = s.swp := by
  unfold shutoffCascade; try dsimp only
  (repeat' split) <;> simp
@[simp] theorem shutoffCascade_mem (s : State) : (shutoffCascade s).mem = s.mem := by
  unfold shutoffCascade; try dsimp only
  (repeat' split) <;> simp
@[simp] theorem shutoffCascade_samplePhase (s : State) : (shutoffCascade s).samplePhase = s.samplePhase := by
  unfold shutoffCascade; try dsimp only
  (repeat' split) <;> simp
@[simp] theorem shutoffCascade_sweepFrequency (s : State) : (shutoffCascade s).sweepFrequency = s.sweepFrequency := by
  unfold shutoffCascade; try dsimp only
  (repeat' split) <;> simp
@[simp] theorem shutoffCascade_sweepTimer (s : State) : (shutoffCascade s).sweepTimer = s.sweepTimer := by
  unfold shutoffCascade; try dsimp only
  (repeat' split) <;> simp
@[simp] theorem shutoffCascade_modulationCounter (s : State) : (shutoffCascade s).modulationCounter = s.modulationCounter := by
  unfold shutoffCascade; try dsimp only
  (repeat' split) <;> simp
@[simp] theorem shutoffCascade_modulationPhase (s : State) : (shutoffCascade s).modulationPhase = s.modulationPhase := by
  unfold shutoffCascade; try dsimp only
  (repeat' split) <;> simp
@[simp] theorem shutoffCascade_modulationLock (s : State) : (shutoffCascade s).modulationLock = s.modulationLock := by
  unfold shutoffCascade; try dsimp only
  (repeat' split) <;> simp
@[simp] theorem shutoffCascade_noiseShift (s : State) : (shutoffCascade s).noiseShift = s.noiseShift := by
  unfold shutoffCascade; try dsimp only
  (repeat' split) <;> simp
@[simp] theorem shutoffCascade_lastSynthesizedCycle (s : State) : (shutoffCascade s).lastSynthesizedCycle = s.lastSynthesizedCycle := by
  unfold shutoffCascade; try dsimp only
  (repeat' split) <;> simp
@[simp] theorem shutoffCascade_effectDivider (s : State) : (shutoffCascade s).effectDivider = s.effectDivider := by
  unfold shutoffCascade; try dsimp only
  (repeat' split) <;> simp
@[simp] theorem shutoffCascade_dcOffset (s : State) : (shutoffCascade s).dcOffset = s.dcOffset := by
  unfold shutoffCascade; try dsimp only
  (repeat' split) <;> simp
@[simp] theorem shutoffCascade_buf (s : State) : (shutoffCascade s).buf = s.buf := by
  unfold shutoffCascade; try dsimp only
  (repeat' split) <;> simp
@[simp] theorem shutoffCascade_ready (s : State) : (shutoffCascade s).ready = s.ready := by
  unfold shutoffCascade; try dsimp only
  (repeat' split) <;> simp
@[simp] theorem shutoffCascade_prodCursor (s : State) : (shutoffCascade s).prodCursor = s.prodCursor := by
  unfold shutoffCascade; try dsimp only
  (repeat' split) <;> simp
@[simp] theorem shutoffCascade_fillPos (s : State) : (shutoffCascade s).fillPos = s.fillPos := by
  unfold shutoffCascade; try dsimp only
  (repeat' split) <;> simp
@[simp] theorem shutoffCascade_consCursor (s : State) : (shutoffCascade s).consCursor = s.consCursor := by
  unfold shutoffCascade; try dsimp only
  (repeat' split) <;> simp
@[simp] theorem shutoffCascade_muted (s : State) : (shutoffCascade s).muted = s.muted := by
  unfold shutoffCascade; try dsimp only
  (repeat' split) <;> simp
@[simp] theorem shutoffCascade_paused (s : State) : (shutoffCascade s).paused = s.paused := by
  unfold shutoffCascade; try dsimp only
  (repeat' split) <;> simp
@[simp] theorem shutoffCascade_pending (s : State) : (shutoffCascade s).pending = s.pending := by
  unfold shutoffCascade; try dsimp only
  (repeat' split) <;> simp
@[simp] theorem shutoffCascade_returned (s : State) : (shutoffCascade s).returned = s.returned := by
  unfold shutoffCascade; try dsimp only
  (repeat' split) <;> simp

@[simp] theorem effectsTick_cfg (s : State) : (effectsTick s).cfg = s.cfg := by
  simp [effectsTick]
@[simp] theorem effectsTick_ram (s : State) : (effectsTick s).ram = s.ram := by
  simp [effectsTick]
@[simp] theorem effectsTick_swp (s : State) : (effectsTick s).swp = s.swp := by
  simp [effectsTick]
@[simp] theorem effectsTick_mem (s : State) : (effectsTick s).mem = s.mem := by
  simp [effectsTick]
@[simp] theorem effectsTick_samplePhase (s : State) : (effectsTick s).samplePhase = s.samplePhase := by
  simp [effectsTick]
@[simp] theorem effectsTick_noiseShift (s : State) : (effectsTick s).noiseShift = s.noiseShift := by
  simp [effectsTick]
@[simp] theorem effectsTick_lastSynthesizedCycle (s : State) : (effectsTick s).lastSynthesizedCycle = s.lastSynthesizedCycle := by
  simp [effectsTick]
@[simp] theorem effectsTick_effectDivider (s : State) : (effectsTick s).effectDivider = s.effectDivider := by
  simp [effectsTick]
@[simp] theorem effectsTick_dcOffset (s : State) : (effectsTick s).dcOffset = s.dcOffset := by
  simp [effectsTick]
@[simp] theorem effectsTick_buf (s : State) : (effectsTick s).buf = s.buf := by
  simp [effectsTick]
@[simp] theorem effectsTick_ready (s : State) : (effectsTick s).ready = s.ready := by
  simp [effectsTick]
@[simp] theorem effectsTick_prodCursor (s : State) : (effectsTick s).prodCursor = s.prodCursor := by
  simp [effectsTick]
@[simp] theorem effectsTick_fillPos (s : State) : (effectsTick s).fillPos = s.fillPos := by
  simp [effectsTick]
@[simp] theorem effectsTick_consCursor (s : State) : (effectsTick s).consCursor = s.consCursor := by
  simp [effectsTick]
@[simp] theorem effectsTick_muted (s : State) : (effectsTick s).muted = s.muted := by
  simp [effectsTick]
@[simp] theorem effectsTick_paused (s : State) : (effectsTick s).paused = s.paused := by
  simp [effectsTick]
@[simp] theorem effectsTick_pending (s : State) : (effectsTick s).pending = s.pending := by
  simp [effectsTick]
@[simp] theorem effectsTick_returned (s : State) : (effectsTick s).returned = s.returned := by
  simp [effectsTick]

@[simp] theorem tickIfDue_cfg (s : State) : (tickIfDue s).cfg = s.cfg := by
  unfold tickIfDue; try dsimp only
  (repeat' split) <;> simp
@[simp] theorem tickIfDue_ram (s : State) : (tickIfDue s).ram = s.ram := by
  unfold tickIfDue; try dsimp only
  (repeat' split) <;> simp
@[simp] theorem tickIfDue_swp (s : State) : (tickIfDue s).swp = s.swp := by
  unfold tickIfDue; try dsimp only
  (repeat' split) <;> simp
@[simp] theorem tickIfDue_mem (s : State) : (tickIfDue s).mem = s.mem := by
  unfold tickIfDue; try dsimp only
  (repeat' split) <;> simp
@[simp] theorem tickIfDue_samplePhase (s : State) : (tickIfDue s).samplePhase = s.samplePhase := by
  unfold tickIfDue; try dsimp only
  (repeat' split) <;> simp
@[simp] theorem tickIfDue_noiseShift (s : State) : (tickIfDue s).noiseShift = s.noiseShift := by
  unfold tickIfDue; try dsimp only
  (repeat' split) <;> simp
@[simp] theorem tickIfDue_lastSynthesizedCycle (s : State) : (tickIfDue s).lastSynthesizedCycle = s.lastSynthesizedCycle := by
  unfold tickIfDue; try dsimp only
  (repeat' split) <;> simp
@[simp] theorem tickIfDue_dcOffset (s : State) : (tickIfDue s).dcOffset = s.dcOffset := by
  unfold tickIfDue; try dsimp only
  (repeat' split) <;> simp
@[simp] theorem tickIfDue_buf (s : State) : (tickIfDue s).buf = s.buf := by
  unfold tickIfDue; try dsimp only
  (repeat' split) <;> simp
@[simp] theorem tickIfDue_ready (s : State) : (tickIfDue s).ready = s.ready := by
  unfold tickIfDue; try dsimp only
  (repeat' split) <;> simp
@[simp] theorem tickIfDue_prodCursor (s : State) : (tickIfDue s).prodCursor = s.prodCursor := by
  unfold tickIfDue; try dsimp only
  (repeat' split) <;> simp
@[simp] theorem tickIfDue_fillPos (s : State) : (tickIfDue s).fillPos = s.fillPos := by
  unfold tickIfDue; try dsimp only
  (repeat' split) <;> simp
@[simp] theorem tickIfDue_consCursor (s : State) : (tickIfDue s).consCursor = s.consCursor := by
  unfold tickIfDue; try dsimp only
  (repeat' split) <;> simp
@[simp] theorem tickIfDue_muted (s : State) : (tickIfDue s).muted = s.muted := by
  unfold tickIfDue; try dsimp only
  (repeat' split) <;> simp
@[simp] theorem tickIfDue_paused (s : State) : (tickIfDue s).paused = s.paused := by
  unfold tickIfDue; try dsimp only
  (repeat' split) <;> simp
@[simp] theorem tickIfDue_pending (s : State) : (tickIfDue s).pending = s.pending := by
  unfold tickIfDue; try dsimp only
  (repeat' split) <;> simp
@[simp] theorem tickIfDue_returned (s : State) : (tickIfDue s).returned = s.returned := by
  unfold tickIfDue; try dsimp only
  (repeat' split) <;> simp

@[simp] theorem channelTick_cfg (s : State) (c : Chan) : (channelTick c s).cfg = s.cfg := by
  unfold channelTick; try dsimp only
  (repeat' split) <;> simp
@[simp] theorem channelTick_chan (s : State) (c : Chan) : (channelTick c s).chan = s.chan := by
  unfold channelTick; try dsimp only
  (repeat' split) <;> simp
@[simp] theorem channelTick_ram (s : State) (c : Chan) : (channelTick c s).ram = s.ram := by
  unfold channelTick; try dsimp only
  (repeat' split) <;> simp
@[simp] theorem channelTick_swp (s : State) (c : Chan) : (channelTick c s).swp = s.swp := by
  unfold channelTick; try dsimp only
  (repeat' split) <;> simp
@[simp] theorem channelTick_mem (s : State) (c : Chan) : (channelTick c s).mem = s.mem := by
  unfold channelTick; try dsimp only
  (repeat' split) <;> simp
@[simp] theorem channelTick_sweepFrequency (s : State) (c : Chan) : (channelTick c s).sweepFrequency = s.sweepFrequency := by
  unfold channelTick; try dsimp only
  (repeat' split) <;> simp
@[simp] theorem channelTick_sweepTimer (s : State) (c : Chan) : (channelTick c s).sweepTimer = s.sweepTimer := by
  unfold channelTick; try dsimp only
  (repeat' split) <;> simp
@[simp] theorem channelTick_modulationCounter (s : State) (c : Chan) : (channelTick c s).modulationCounter = s.modulationCounter := by
  unfold channelTick; try dsimp only
  (repeat' split) <;> simp
@[simp] theorem channelTick_modulationPhase (s : State) (c : Chan) : (channelTick c s).modulationPhase = s.modulationPhase := by
  unfold channelTick; try dsimp only
  (repeat' split) <;> simp
@[simp] theorem channelTick_modulationLock (s : State) (c : Chan) : (channelTick c s).modulationLock = s.modulationLock := by
  unfold channelTick; try dsimp only
  (repeat' split) <;> simp
@[simp] theorem channelTick_lastSynthesizedCycle (s : State) (c : Chan) : (channelTick c s).lastSynthesizedCycle = s.lastSynthesizedCycle := by
  unfold channelTick; try dsimp only
  (repeat' split) <;> simp
@[simp] theorem channelTick_effectDivider (s : State) (c : Chan) : (channelTick c s).effectDivider = s.effectDivider := by
  unfold channelTick; try dsimp only
  (repeat' split) <;> simp
@[simp] theorem channelTick_shutoffDivider (s : State) (c : Chan) : (channelTick c s).shutoffDivider = s.shutoffDivider := by
  unfold channelTick; try dsimp only
  (repeat' split) <;> simp
@[simp] theorem channelTick_envelopeDivider (s : State) (c : Chan) : (channelTick c s).envelopeDivider = s.envelopeDivider := by
  unfold channelTick; try dsimp only
  (repeat' split) <;> simp
@[simp] theorem channelTick_dcOffset (s : State) (c : Chan) : (channelTick c s).dcOffset = s.dcOffset := by
  unfold channelTick; try dsimp only
  (repeat' split) <;> simp
@[simp] theorem channelTick_buf (s : State) (c : Chan) : (channelTick c s).buf = s.buf := by
  unfold channelTick; try dsimp only
  (repeat' split) <;> simp
@[simp] theorem channelTick_ready (s : State) (c : Chan) : (channelTick c s).ready = s.ready := by
  unfold channelTick; try dsimp only
  (repeat' split) <;> simp
@[simp] theorem channelTick_prodCursor (s : State) (c : Chan) : (channelTick c s).prodCursor = s.prodCursor := by
  unfold channelTick; try dsimp only
  (repeat' split) <;> simp
@[simp] theorem channelTick_fillPos (s : State) (c : Chan) : (channelTick c s).fillPos = s.fillPos := by
  unfold channelTick; try dsimp only
  (repeat' split) <;> simp
@[simp] theorem channelTick_consCursor (s : State) (c : Chan) : (channelTick c s).consCursor = s.consCursor := by
  unfold channelTick; try dsimp only
  (repeat' split) <;> simp
@[simp] theorem channelTick_muted (s : State) (c : Chan) : (channelTick c s).muted = s.muted := by
  unfold channelTick; try dsimp only
  (repeat' split) <;> simp
@[simp] theorem channelTick_paused (s : State) (c : Chan) : (channelTick c s).paused = s.paused := by
  unfold channelTick; try dsimp only
  (repeat' split) <;> simp
@[simp] theorem channelTick_pending (s : State) (c : Chan) : (channelTick c s).pending = s.pending := by
  unfold channelTick; try dsimp only
  (repeat' split) <;> simp
@[simp] theorem channelTick_returned (s : State) (c : Chan) : (channelTick c s).returned = s.returned := by
  unfold channelTick; try dsimp only
  (repeat' split) <;> simp

@[simp] theorem tickAndReload_cfg (s : State) (c : Chan) : (tickAndReload c s).cfg = s.cfg := by
  simp [tickAndReload]
@[simp] theorem tickAndReload_ram (s : State) (c : Chan) : (tickAndReload c s).ram = s.ram := by
  simp [tickAndReload]
@[simp] theorem tickAndReload_swp (s : State) (c : Chan) : (tickAndReload c s).swp = s.swp := by
  simp [tickAndReload]
@[simp] theorem tickAndReload_mem (s : State) (c : Chan) : (tickAndReload c s).mem = s.mem := by
  simp [tickAndReload]
@[simp] theorem tickAndReload_sweepFrequency (s : State) (c : Chan) : (tickAndReload c s).sweepFrequency = s.sweepFrequency := by
  simp [tickAndReload]
@[simp] theorem tickAndReload_sweepTimer (s : State) (c : Chan) : (tickAndReload c s).sweepTimer = s.sweepTimer := by
  simp [tickAndReload]
@[simp] theorem tickAndReload_modulationCounter (s : State) (c : Chan) : (tickAndReload c s).modulationCounter = s.modulationCounter := by
  simp [tickAndReload]
@[simp] theorem tickAndReload_modulationPhase (s : State) (c : Chan) : (tickAndReload c s).modulationPhase = s.modulationPhase := by
  simp [tickAndReload]
@[simp] theorem tickAndReload_modulationLock (s : State) (c : Chan) : (tickAndReload c s).modulationLock = s.modulationLock := by
  simp [tickAndReload]
@[simp] theorem tickAndReload_lastSynthesizedCycle (s : State) (c : Chan) : (tickAndReload c s).lastSynthesizedCycle = s.lastSynthesizedCycle := by
  simp [tickAndReload]
@[simp] theorem tickAndReload_effectDivider (s : State) (c : Chan) : (tickAndReload c s).effectDivider = s.effectDivider := by
  simp [tickAndReload]
@[simp] theorem tickAndReload_shutoffDivider (s : State) (c : Chan) : (tickAndReload c s).shutoffDivider = s.shutoffDivider := by
  simp [tickAndReload]
@[simp] theorem tickAndReload_envelopeDivider (s : State) (c : Chan) : (tickAndReload c s).envelopeDivider = s.envelopeDivider := by
  simp [tickAndReload]
@[simp] theorem tickAndReload_dcOffset (s : State) (c : Chan) : (tickAndReload c s).dcOffset = s.dcOffset := by
  simp [tickAndReload]
@[simp] theorem tickAndReload_buf (s : State) (c : Chan) : (tickAndReload c s).buf = s.buf := by
  simp [tickAndReload]
@[simp] theorem tickAndReload_ready (s : State) (c : Chan) : (tickAndReload c s).ready = s.ready := by
  simp [tickAndReload]
@[simp] theorem tickAndReload_prodCursor (s : State) (c : Chan) : (tickAndReload c s).prodCursor = s.prodCursor := by
  simp [tickAndReload]
@[simp] theorem tickAndReload_fillPos (s : State) (c : Chan) : (tickAndReload c s).fillPos = s.fillPos := by
  simp [tickAndReload]
@[simp] theorem tickAndReload_consCursor (s : State) (c : Chan) : (tickAndReload c s).consCursor = s.consCursor := by
  simp [tickAndReload]
@[simp] theorem tickAndReload_muted (s : State) (c : Chan) : (tickAndReload c s).muted = s.muted := by
  simp [tickAndReload]
@[simp] theorem tickAndReload_paused (s : State) (c : Chan) : (tickAndReload c s).paused = s.paused := by
  simp [tickAndReload]
@[simp] theorem tickAndReload_pending (s : State) (c : Chan) : (tickAndReload c s).pending = s.pending := by
  simp [tickAndReload]
@[simp] theorem tickAndReload_returned (s : State) (c : Chan) : (tickAndReload c s).returned = s.returned := by
  simp [tickAndReload]

@[simp] theorem windowEnd_cfg (s : State) (c : Chan) (r : Nat) : (windowEnd c r s).cfg = s.cfg := by
  unfold windowEnd; try dsimp only
  (repeat' split) <;> simp
@[simp] theorem windowEnd_ram (s : State) (c : Chan) (r : Nat) : (windowEnd c r s).ram = s.ram := by
  unfold windowEnd; try dsimp only
  (repeat' split) <;> simp
@[simp] theorem windowEnd_swp (s : State) (c : Chan) (r : Nat) : (windowEnd c r s).swp = s.swp := by
  unfold windowEnd; try dsimp only
  (repeat' split) <;> simp
@[simp] theorem windowEnd_mem (s : State) (c : Chan) (r : Nat) : (windowEnd c r s).mem = s.mem := by
  unfold windowEnd; try dsimp only
  (repeat' split) <;> simp
@[simp] theorem windowEnd_sweepFrequency (s : State) (c : Chan) (r : Nat) : (windowEnd c r s).sweepFrequency = s.sweepFrequency := by
  unfold windowEnd; try dsimp only
  (repeat' split) <;> simp
@[simp] theorem windowEnd_sweepTimer (s : State) (c : Chan) (r : Nat) : (windowEnd c r s).sweepTimer = s.sweepTimer := by
  unfold windowEnd; try dsimp only
  (repeat' split) <;> simp
@[simp] theorem windowEnd_modulationCounter (s : State) (c : Chan) (r : Nat) : (windowEnd c r s).modulationCounter = s.modulationCounter := by
  unfold windowEnd; try dsimp only
  (repeat' split) <;> simp
@[simp] theorem windowEnd_modulationPhase (s : State) (c : Chan) (r : Nat) : (windowEnd c r s).modulationPhase = s.modulationPhase := by
  unfold windowEnd; try dsimp only
  (repeat' split) <;> simp
@[simp] theorem windowEnd_modulationLock (s : State) (c : Chan) (r : Nat) : (windowEnd c r s).modulationLock = s.modulationLock := by
  unfold windowEnd; try dsimp only
  (repeat' split) <;> simp
@[simp] theorem windowEnd_lastSynthesizedCycle (s : State) (c : Chan) (r : Nat) : (windowEnd c r s).lastSynthesizedCycle = s.lastSynthesizedCycle := by
  unfold windowEnd; try dsimp only
  (repeat' split) <;> simp
@[simp] theorem windowEnd_effectDivider (s : State) (c : Chan) (r : Nat) : (windowEnd c r s).effectDivider = s.effectDivider := by
  unfold windowEnd; try dsimp only
  (repeat' split) <;> simp
@[simp] theorem windowEnd_shutoffDivider (s : State) (c : Chan) (r : Nat) : (windowEnd c r s).shutoffDivider = s.shutoffDivider := by
  unfold windowEnd; try dsimp only
  (repeat' split) <;> simp
@[simp] theorem windowEnd_envelopeDivider (s : State) (c : Chan) (r : Nat) : (windowEnd c r s).envelopeDivider = s.envelopeDivider := by
  unfold windowEnd; try dsimp only
  (repeat' split) <;> simp
@[simp] theorem windowEnd_dcOffset (s : State) (c : Chan) (r : Nat) : (windowEnd c r s).dcOffset = s.dcOffset := by
  unfold windowEnd; try dsimp only
  (repeat' split) <;> simp
@[simp] theorem windowEnd_buf (s : State) (c : Chan) (r : Nat) : (windowEnd c r s).buf = s.buf := by
  unfold windowEnd; try dsimp only
  (repeat' split) <;> simp
@[simp] theorem windowEnd_ready (s : State) (c : Chan) (r : Nat) : (windowEnd c r s).ready = s.ready := by
  unfold windowEnd; try dsimp only
  (repeat' split) <;> simp
@[simp] theorem windowEnd_prodCursor (s : State) (c : Chan) (r : Nat) : (windowEnd c r s).prodCursor = s.prodCursor := by
  unfold windowEnd; try dsimp only
  (repeat' split) <;> simp
@[simp] theorem windowEnd_fillPos (s : State) (c : Chan) (r : Nat) : (windowEnd c r s).fillPos = s.fillPos := by
  unfold windowEnd; try dsimp only
  (repeat' split) <;> simp
@[simp] theorem windowEnd_consCursor (s : State) (c : Chan) (r : Nat) : (windowEnd c r s).consCursor = s.consCursor := by
  unfold windowEnd; try dsimp only
  (repeat' split) <;> simp
@[simp] theorem windowEnd_muted (s : State) (c : Chan) (r : Nat) : (windowEnd c r s).muted = s.muted := by
  unfold windowEnd; try dsimp only
  (repeat' split) <;> simp
@[simp] theorem windowEnd_paused (s : State) (c : Chan) (r : Nat) : (windowEnd c r s).paused = s.paused := by
  unfold windowEnd; try dsimp only
  (repeat' split) <;> simp
@[simp] theorem windowEnd_pending (s : State) (c : Chan) (r : Nat) : (windowEnd c r s).pending = s.pending := by
  unfold windowEnd; try dsimp only
  (repeat' split) <;> simp
@[simp] theorem windowEnd_returned (s : State) (c : Chan) (r : Nat) : (windowEnd c r s).returned = s.returned := by
  unfold windowEnd; try dsimp only
  (repeat' split) <;> simp

@[simp] theorem ticksInside_cfg (n : Nat) (c : Chan) (r : Nat) (s : State) :
    (ticksInside n c r s).2.cfg = s.cfg := by
  induction n generalizing r s with
  | zero => rfl
  | succ n ih => unfold ticksInside; simp only; split <;> simp [ih]
@[simp] theorem ticksInside_ram (n : Nat) (c : Chan) (r : Nat) (s : State) :
    (ticksInside n c r s).2.ram = s.ram := by
  induction n generalizing r s with
  | zero => rfl
  | succ n ih => unfold ticksInside; simp only; split <;> simp [ih]
@[simp] theorem ticksInside_swp (n : Nat) (c : Chan) (r : Nat) (s : State) :
    (ticksInside n c r s).2.swp = s.swp := by
  induction n generalizing r s with
  | zero => rfl
  | succ n ih => unfold ticksInside; simp only; split <;> simp [ih]
@[simp] theorem ticksInside_mem (n : Nat) (c : Chan) (r : Nat) (s : State) :
    (ticksInside n c r s).2.mem = s.mem := by
  induction n generalizing r s with
  | zero => rfl
  | succ n ih => unfold ticksInside; simp only; split <;> simp [ih]
@[simp] theorem ticksInside_sweepFrequency (n : Nat) (c : Chan) (r : Nat) (s : State) :
    (ticksInside n c r s).2.sweepFrequency = s.sweepFrequency := by
  induction n generalizing r s with
  | zero => rfl
  | succ n ih => unfold ticksInside; simp only; split <;> simp [ih]
@[simp] theorem ticksInside_sweepTimer (n : Nat) (c : Chan) (r : Nat) (s : State) :
    (ticksInside n c r s).2.sweepTimer = s.sweepTimer := by
  induction n generalizing r s with
  | zero => rfl
  | succ n ih => unfold ticksInside; simp only; split <;> simp [ih]
@[simp] theorem ticksInside_modulationCounter (n : Nat) (c : Chan) (r : Nat) (s : State) :
    (ticksInside n c r s).2.modulationCounter = s.modulationCounter := by
  induction n generalizing r s with
  | zero => rfl
  | succ n ih => unfold ticksInside; simp only; split <;> simp [ih]
@[simp] theorem ticksInside_modulationPhase (n : Nat) (c : Chan) (r : Nat) (s : State) :
    (ticksInside n c r s).2.modulationPhase = s.modulationPhase := by
  induction n generalizing r s with
  | zero => rfl
  | succ n ih => unfold ticksInside; simp only; split <;> simp [ih]
@[simp] theorem ticksInside_modulationLock (n : Nat) (c : Chan) (r : Nat) (s : State) :
    (ticksInside n c r s).2.modulationLock = s.modulationLock := by
  induction n generalizing r s with
  | zero => rfl
  | succ n ih => unfold ticksInside; simp only; split <;> simp [ih]
@[simp] theorem ticksInside_lastSynthesizedCycle (n : Nat) (c : Chan) (r : Nat) (s : State) :
    (ticksInside n c r s).2.lastSynthesizedCycle = s.lastSynthesizedCycle := by
  induction n generalizing r s with
  | zero => rfl
  | succ n ih => unfold ticksInside; simp only; split <;> simp [ih]
@[simp] theorem ticksInside_effectDivider (n : Nat) (c : Chan) (r : Nat) (s : State) :
    (ticksInside n c r s).2.effectDivider = s.effectDivider := by
  induction n generalizing r s with
  | zero => rfl
  | succ n ih => unfold ticksInside; simp only; split <;> simp [ih]
@[simp] theorem ticksInside_shutoffDivider (n : Nat) (c : Chan) (r : Nat) (s : State) :
    (ticksInside n c r s).2.shutoffDivider = s.shutoffDivider := by
  induction n generalizing r s with
  | zero => rfl
  | succ n ih => unfold ticksInside; simp only; split <;> simp [ih]
@[simp] theorem ticksInside_envelopeDivider (n : Nat) (c : Chan) (r : Nat) (s : State) :
    (ticksInside n c r s).2.envelopeDivider = s.envelopeDivider := by
  induction n generalizing r s with
  | zero => rfl
  | succ n ih => unfold ticksInside; simp only; split <;> simp [ih]
@[simp] theorem ticksInside_dcOffset (n : Nat) (c : Chan) (r : Nat) (s : State) :
    (ticksInside n c r s).2.dcOffset = s.dcOffset := by
  induction n generalizing r s with
  | zero => rfl
  | succ n ih => unfold ticksInside; simp only; split <;> simp [ih]
@[simp] theorem ticksInside_buf (n : Nat) (c : Chan) (r : Nat) (s : State) :
    (ticksInside n c r s).2.buf = s.buf := by
  induction n generalizing r s with
  | zero => rfl
  | succ n ih => unfold ticksInside; simp only; split <;> simp [ih]
@[simp] theorem ticksInside_ready (n : Nat) (c : Chan) (r : Nat) (s : State) :
    (ticksInside n c r s).2.ready = s.ready := by
  induction n generalizing r s with
  | zero => rfl
  | succ n ih => unfold ticksInside; simp only; split <;> simp [ih]
@[simp] theorem ticksInside_prodCursor (n : Nat) (c : Chan) (r : Nat) (s : State) :
    (ticksInside n c r s).2.prodCursor = s.prodCursor := by
  induction n generalizing r s with
  | zero => rfl
  | succ n ih => unfold ticksInside; simp only; split <;> simp [ih]
@[simp] theorem ticksInside_fillPos (n : Nat) (c : Chan) (r : Nat) (s : State) :
    (ticksInside n c r s).2.fillPos = s.fillPos := by
  induction n generalizing r s with
  | zero => rfl
  | succ n ih => unfold ticksInside; simp only; split <;> simp [ih]
@[simp] theorem ticksInside_consCursor (n : Nat) (c : Chan) (r : Nat) (s : State) :
    (ticksInside n c r s).2.consCursor = s.consCursor := by
  induction n generalizing r s with
  | zero => rfl
  | succ n ih => unfold ticksInside; simp only; split <;> simp [ih]
@[simp] theorem ticksInside_muted (n : Nat) (c : Chan) (r : Nat) (s : State) :
    (ticksInside n c r s).2.muted = s.muted := by
  induction n generalizing r s with
  | zero => rfl
  | succ n ih => unfold ticksInside; simp only; split <;> simp [ih]
@[simp] theorem ticksInside_paused (n : Nat) (c : Chan) (r : Nat) (s : State) :
    (ticksInside n c r s).2.paused = s.paused := by
  induction n generalizing r s with
  | zero => rfl
  | succ n ih => unfold ticksInside; simp only; split <;> simp [ih]
@[simp] theorem ticksInside_pending (n : Nat) (c : Chan) (r : Nat) (s : State) :
    (ticksInside n c r s).2.pending = s.pending := by
  induction n generalizing r s with
  | zero => rfl
  | succ n ih => unfold ticksInside; simp only; split <;> simp [ih]
@[simp] theorem ticksInside_returned (n : Nat) (c : Chan) (r : Nat) (s : State) :
    (ticksInside n c r s).2.returned = s.returned := by
  induction n generalizing r s with
  | zero => rfl
  | succ n ih => unfold ticksInside; simp only; split <;> simp [ih]

@[simp] theorem stepChannel_cfg (m : Mix) (c : Chan) : (stepChannel m c).st.cfg = m.st.cfg := by
  unfold stepChannel; try dsimp only
  (repeat' split) <;> simp
@[simp] theorem stepChannel_ram (m : Mix) (c : Chan) : (stepChannel m c).st.ram = m.st.ram := by
  unfold stepChannel; try dsimp only
  (repeat' split) <;> simp
@[simp] theorem stepChannel_swp (m : Mix) (c : Chan) : (stepChannel m c).st.swp = m.st.swp := by
  unfold stepChannel; try dsimp only
  (repeat' split) <;> simp
@[simp] theorem stepChannel_mem (m : Mix) (c : Chan) : (stepChannel m c).st.mem = m.st.mem := by
  unfold stepChannel; try dsimp only
  (repeat' split) <;> simp
@[simp] theorem stepChannel_sweepFrequency (m : Mix) (c : Chan) : (stepChannel m c).st.sweepFrequency = m.st.sweepFrequency := by
  unfold stepChannel; try dsimp only
  (repeat' split) <;> simp
@[simp] theorem stepChannel_sweepTimer (m : Mix) (c : Chan) : (stepChannel m c).st.sweepTimer = m.st.sweepTimer := by
  unfold stepChannel; try dsimp only
  (repeat' split) <;> simp
@[simp] theorem stepChannel_modulationCounter (m : Mix) (c : Chan) : (stepChannel m c).st.modulationCounter = m.st.modulationCounter := by
  unfold stepChannel; try dsimp only
  (repeat' split) <;> simp
@[simp] theorem stepChannel_modulationPhase (m : Mix) (c : Chan) : (stepChannel m c).st.modulationPhase = m.st.modulationPhase := by
  unfold stepChannel; try dsimp only
  (repeat' split) <;> simp
@[simp] theorem stepChannel_modulationLock (m : Mix) (c : Chan) : (stepChannel m c).st.modulationLock = m.st.modulationLock := by
  unfold stepChannel; try dsimp only
  (repeat' split) <;> simp
@[simp] theorem stepChannel_lastSynthesizedCycle (m : Mix) (c : Chan) : (stepChannel m c).st.lastSynthesizedCycle = m.st.lastSynthesizedCycle := by
  unfold stepChannel; try dsimp only
  (repeat' split) <;> simp
@[simp] theorem stepChannel_effectDivider (m : Mix) (c : Chan) : (stepChannel m c).st.effectDivider = m.st.effectDivider := by
  unfold stepChannel; try dsimp only
  (repeat' split) <;> simp
@[simp] theorem stepChannel_shutoffDivider (m : Mix) (c : Chan) : (stepChannel m c).st.shutoffDivider = m.st.shutoffDivider := by
  unfold stepChannel; try dsimp only
  (repeat' split) <;> simp
@[simp] theorem stepChannel_envelopeDivider (m : Mix) (c : Chan) : (stepChannel m c).st.envelopeDivider = m.st.envelopeDivider := by
  unfold stepChannel; try dsimp only
  (repeat' split) <;> simp
@[simp] theorem stepChannel_dcOffset (m : Mix) (c : Chan) : (stepChannel m c).st.dcOffset = m.st.dcOffset := by
  unfold stepChannel; try dsimp only
  (repeat' split) <;> simp
@[simp] theorem stepChannel_buf (m : Mix) (c : Chan) : (stepChannel m c).st.buf = m.st.buf := by
  unfold stepChannel; try dsimp only
  (repeat' split) <;> simp
@[simp] theorem stepChannel_ready (m : Mix) (c : Chan) : (stepChannel m c).st.ready = m.st.ready := by
  unfold stepChannel; try dsimp only
  (repeat' split) <;> simp
@[simp] theorem stepChannel_prodCursor (m : Mix) (c : Chan) : (stepChannel m c).st.prodCursor = m.st.prodCursor := by
  unfold stepChannel; try dsimp only
  (repeat' split) <;> simp
@[simp] theorem stepChannel_fillPos (m : Mix) (c : Chan) : (stepChannel m c).st.fillPos = m.st.fillPos := by
  unfold stepChannel; try dsimp only
  (repeat' split) <;> simp
@[simp] theorem stepChannel_consCursor (m : Mix) (c : Chan) : (stepChannel m c).st.consCursor = m.st.consCursor := by
  unfold stepChannel; try dsimp only
  (repeat' split) <;> simp
@[simp] theorem stepChannel_muted (m : Mix) (c : Chan) : (stepChannel m c).st.muted = m.st.muted := by
  unfold stepChannel; try dsimp only
  (repeat' split) <;> simp
@[simp] theorem stepChannel_paused (m : Mix) (c : Chan) : (stepChannel m c).st.paused = m.st.paused := by
  unfold stepChannel; try dsimp only
  (repeat' split) <;> simp
@[simp] theorem stepChannel_pending (m : Mix) (c : Chan) : (stepChannel m c).st.pending = m.st.pending := by
  unfold stepChannel; try dsimp only
  (repeat' split) <;> simp
@[simp] theorem stepChannel_returned (m : Mix) (c : Chan) : (stepChannel m c).st.returned = m.st.returned := by
  unfold stepChannel; try dsimp only
  (repeat' split) <;> simp

@[simp] theorem mixChannels_cfg (s : State) : (mixChannels s).st.cfg = s.cfg := by
  simp [mixChannels]
@[simp] theorem mixChannels_ram (s : State) : (mixChannels s).st.ram = s.ram := by
  simp [mixChannels]
@[simp] theorem mixChannels_swp (s : State) : (mixChannels s).st.swp = s.swp := by
  simp [mixChannels]
@[simp] theorem mixChannels_mem (s : State) : (mixChannels s).st.mem = s.mem := by
  simp [mixChannels]
@[simp] theorem mixChannels_sweepFrequency (s : State) : (mixChannels s).st.sweepFrequency = s.sweepFrequency := by
  simp [mixChannels]
@[simp] theorem mixChannels_sweepTimer (s : State) : (mixChannels s).st.sweepTimer = s.sweepTimer := by
  simp [mixChannels]
@[simp] theorem mixChannels_modulationCounter (s : State) : (mixChannels s).st.modulationCounter = s.modulationCounter := by
  simp [mixChannels]
@[simp] theorem mixChannels_modulationPhase (s : State) : (mixChannels s).st.modulationPhase = s.modulationPhase := by
  simp [mixChannels]
@[simp] theorem mixChannels_modulationLock (s : State) : (mixChannels s).st.modulationLock = s.modulationLock := by
  simp [mixChannels]
@[simp] theorem mixChannels_lastSynthesizedCycle (s : State) : (mixChannels s).st.lastSynthesizedCycle = s.lastSynthesizedCycle := by
  simp [mixChannels]
@[simp] theorem mixChannels_effectDivider (s : State) : (mixChannels s).st.effectDivider = s.effectDivider := by
  simp [mixChannels]
@[simp] theorem mixChannels_shutoffDivider (s : State) : (mixChannels s).st.shutoffDivider = s.shutoffDivider := by
  simp [mixChannels]
@[simp] theorem mixChannels_envelopeDivider (s : State) : (mixChannels s).st.envelopeDivider = s.envelopeDivider := by
  simp [mixChannels]
@[simp] theorem mixChannels_dcOffset (s : State) : (mixChannels s).st.dcOffset = s.dcOffset := by
  simp [mixChannels]
@[simp] theorem mixChannels_buf (s : State) : (mixChannels s).st.buf = s.buf := by
  simp [mixChannels]
@[simp] theorem mixChannels_ready (s : State) : (mixChannels s).st.ready = s.ready := by
  simp [mixChannels]
@[simp] theorem mixChannels_prodCursor (s : State) : (mixChannels s).st.prodCursor = s.prodCursor := by
  simp [mixChannels]
@[simp] theorem mixChannels_fillPos (s : State) : (mixChannels s).st.fillPos = s.fillPos := by
  simp [mixChannels]
@[simp] theorem mixChannels_consCursor (s : State) : (mixChannels s).st.consCursor = s.consCursor := by
  simp [mixChannels]
@[simp] theorem mixChannels_muted (s : State) : (mixChannels s).st.muted = s.muted := by
  simp [mixChannels]
@[simp] theorem mixChannels_paused (s : State) : (mixChannels s).st.paused = s.paused := by
  simp [mixChannels]
@[simp] theorem mixChannels_pending (s : State) : (mixChannels s).st.pending = s.pending := by
  simp [mixChannels]
@[simp] theorem mixChannels_returned (s : State) : (mixChannels s).st.returned = s.returned := by
  simp [mixChannels]

@[simp] theorem postProcess_cfg (s : State) : (postProcess s).cfg = s.cfg := rfl
@[simp] theorem postProcess_chan (s : State) : (postProcess s).chan = s.chan := rfl
@[simp] theorem postProcess_ram (s : State) : (postProcess s).ram = s.ram := rfl
@[simp] theorem postProcess_swp (s : State) : (postProcess s).swp = s.swp := rfl
@[simp] theorem postProcess_mem (s : State) : (postProcess s).mem = s.mem := rfl
@[simp] theorem postProcess_samplePhase (s : State) : (postProcess s).samplePhase = s.samplePhase := rfl
@[simp] theorem postProcess_sweepFrequency (s : State) : (postProcess s).sweepFrequency = s.sweepFrequency := rfl
@[simp] theorem postProcess_sweepTimer (s : State) : (postProcess s).sweepTimer = s.sweepTimer := rfl
@[simp] theorem postProcess_modulationCounter (s : State) : (postProcess s).modulationCounter = s.modulationCounter := rfl
@[simp] theorem postProcess_modulationPhase (s : State) : (postProcess s).modulationPhase = s.modulationPhase := rfl
@[simp] theorem postProcess_modulationLock (s : State) : (postProcess s).modulationLock = s.modulationLock := rfl
@[simp] theorem postProcess_noiseShift (s : State) : (postProcess s).noiseShift = s.noiseShift := rfl
@[simp] theorem postProcess_lastSynthesizedCycle (s : State) : (postProcess s).lastSynthesizedCycle = s.lastSynthesizedCycle := rfl
@[simp] theorem postProcess_effectDivider (s : State) : (postProcess s).effectDivider = s.effectDivider := rfl
@[simp] theorem postProcess_shutoffDivider (s : State) : (postProcess s).shutoffDivider = s.shutoffDivider := rfl
@[simp] theorem postProcess_envelopeDivider (s : State) : (postProcess s).envelopeDivider = s.envelopeDivider := rfl
@[simp] theorem postProcess_ready (s : State) : (postProcess s).ready = s.ready := rfl
@[simp] theorem postProcess_prodCursor (s : State) : (postProcess s).prodCursor = s.prodCursor := rfl
@[simp] theorem postProcess_fillPos (s : State) : (postProcess s).fillPos = s.fillPos := rfl
@[simp] theorem postProcess_consCursor (s : State) : (postProcess s).consCursor = s.consCursor := rfl
@[simp] theorem postProcess_muted (s : State) : (postProcess s).muted = s.muted := rfl
@[simp] theorem postProcess_paused (s : State) : (postProcess s).paused = s.paused := rfl
@[simp] theorem postProcess_pending (s : State) : (postProcess s).pending = s.pending := rfl
@[simp] theorem postProcess_returned (s : State) : (postProcess s).returned = s.returned := rfl

@[simp] theorem handOff_cfg (s : State) : (handOff s).cfg = s.cfg := by
  unfold handOff; try dsimp only
  (repeat' split) <;> simp
@[simp] theorem handOff_chan (s : State) : (handOff s).chan = s.chan := by
  unfold handOff; try dsimp only
  (repeat' split) <;> simp
@[simp] theorem handOff_ram (s : State) : (handOff s).ram = s.ram := by
  unfold handOff; try dsimp only
  (repeat' split) <;> simp
@[simp] theorem handOff_swp (s : State) : (handOff s).swp = s.swp := by
  unfold handOff; try dsimp only
  (repeat' split) <;> simp
@[simp] theorem handOff_mem (s : State) : (handOff s).mem = s.mem := by
  unfold handOff; try dsimp only
  (repeat' split) <;> simp
@[simp] theorem handOff_samplePhase (s : State) : (handOff s).samplePhase = s.samplePhase := by
  unfold handOff; try dsimp only
  (repeat' split) <;> simp
@[simp] theorem handOff_sweepFrequency (s : State) : (handOff s).sweepFrequency = s.sweepFrequency := by
  unfold handOff; try dsimp only
  (repeat' split) <;> simp
@[simp] theorem handOff_sweepTimer (s : State) : (handOff s).sweepTimer = s.sweepTimer := by
  unfold handOff; try dsimp only
  (repeat' split) <;> simp
@[simp] theorem handOff_modulationCounter (s : State) : (handOff s).modulationCounter = s.modulationCounter := by
  unfold handOff; try dsimp only
  (repeat' split) <;> simp
@[simp] theorem handOff_modulationPhase (s : State) : (handOff s).modulationPhase = s.modulationPhase := by
  unfold handOff; try dsimp only
  (repeat' split) <;> simp
@[simp] theorem handOff_modulationLock (s : State) : (handOff s).modulationLock = s.modulationLock := by
  unfold handOff; try dsimp only
  (repeat' split) <;> simp
@[simp] theorem handOff_noiseShift (s : State) : (handOff s).noiseShift = s.noiseShift := by
  unfold handOff; try dsimp only
  (repeat' split) <;> simp
@[simp] theorem handOff_lastSynthesizedCycle (s : State) : (handOff s).lastSynthesizedCycle = s.lastSynthesizedCycle := by
  unfold handOff; try dsimp only
  (repeat' split) <;> simp
@[simp] theorem handOff_effectDivider (s : State) : (handOff s).effectDivider = s.effectDivider := by
  unfold handOff; try dsimp only
  (repeat' split) <;> simp
@[simp] theorem handOff_shutoffDivider (s : State) : (handOff s).shutoffDivider = s.shutoffDivider := by
  unfold handOff; try dsimp only
  (repeat' split) <;> simp
@[simp] theorem handOff_envelopeDivider (s : State) : (handOff s).envelopeDivider = s.envelopeDivider := by
  unfold handOff; try dsimp only
  (repeat' split) <;> simp
@[simp] theorem handOff_dcOffset (s : State) : (handOff s).dcOffset = s.dcOffset := by
  unfold handOff; try dsimp only
  (repeat' split) <;> simp
@[simp] theorem handOff_buf (s : State) : (handOff s).buf = s.buf := by
  unfold handOff; try dsimp only
  (repeat' split) <;> simp
@[simp] theorem handOff_fillPos (s : State) : (handOff s).fillPos = s.fillPos := by
  unfold handOff; try dsimp only
  (repeat' split) <;> simp
@[simp] theorem handOff_consCursor (s : State) : (handOff s).consCursor = s.consCursor := by
  unfold handOff; try dsimp only
  (repeat' split) <;> simp
@[simp] theorem handOff_muted (s : State) : (handOff s).muted = s.muted := by
  unfold handOff; try dsimp only
  (repeat' split) <;> simp
@[simp] theorem handOff_paused (s : State) : (handOff s).paused = s.paused := by
  unfold handOff; try dsimp only
  (repeat' split) <;> simp
@[simp] theorem handOff_pending (s : State) : (handOff s).pending = s.pending := by
  unfold handOff; try dsimp only
  (repeat' split) <;> simp
@[simp] theorem handOff_returned (s : State) : (handOff s).returned = s.returned := by
  unfold handOff; try dsimp only
  (repeat' split) <;> simp

@[simp] theorem completeBuffer_cfg (s : State) : (completeBuffer s).cfg = s.cfg := by
  unfold completeBuffer; try dsimp only
  (repeat' split) <;> simp
@[simp] theorem completeBuffer_chan (s : State) : (completeBuffer s).chan = s.chan := by
  unfold completeBuffer; try dsimp only
  (repeat' split) <;> simp
@[simp] theorem completeBuffer_ram (s : State) : (completeBuffer s).ram = s.ram := by
  unfold completeBuffer; try dsimp only
  (repeat' split) <;> simp
@[simp] theorem completeBuffer_swp (s : State) : (completeBuffer s).swp = s.swp := by
  unfold completeBuffer; try dsimp only
  (repeat' split) <;> simp
@[simp] theorem completeBuffer_mem (s : State) : (completeBuffer s).mem = s.mem := by
  unfold completeBuffer; try dsimp only
  (repeat' split) <;> simp
@[simp] theorem completeBuffer_samplePhase (s : State) : (completeBuffer s).samplePhase = s.samplePhase := by
  unfold completeBuffer; try dsimp only
  (repeat' split) <;> simp
@[simp] theorem completeBuffer_sweepFrequency (s : State) : (completeBuffer s).sweepFrequency = s.sweepFrequency := by
  unfold completeBuffer; try dsimp only
  (repeat' split) <;> simp
@[simp] theorem completeBuffer_sweepTimer (s : State) : (completeBuffer s).sweepTimer = s.sweepTimer := by
  unfold completeBuffer; try dsimp only
  (repeat' split) <;> simp
@[simp] theorem completeBuffer_modulationCounter (s : State) : (completeBuffer s).modulationCounter = s.modulationCounter := by
  unfold completeBuffer; try dsimp only
  (repeat' split) <;> simp
@[simp] theorem completeBuffer_modulationPhase (s : State) : (completeBuffer s).modulationPhase = s.modulationPhase := by
  unfold completeBuffer; try dsimp only
  (repeat' split) <;> simp
@[simp] theorem completeBuffer_modulationLock (s : State) : (completeBuffer s).modulationLock = s.modulationLock := by
  unfold completeBuffer; try dsimp only
  (repeat' split) <;> simp
@[simp] theorem completeBuffer_noiseShift (s : State) : (completeBuffer s).noiseShift = s.noiseShift := by
  unfold completeBuffer; try dsimp only
  (repeat' split) <;> simp
@[simp] theorem completeBuffer_lastSynthesizedCycle (s : State) : (completeBuffer s).lastSynthesizedCycle = s.lastSynthesizedCycle := by
  unfold completeBuffer; try dsimp only
  (repeat' split) <;> simp
@[simp] theorem completeBuffer_effectDivider (s : State) : (completeBuffer s).effectDivider = s.effectDivider := by
  unfold completeBuffer; try dsimp only
  (repeat' split) <;> simp
@[simp] theorem completeBuffer_shutoffDivider (s : State) : (completeBuffer s).shutoffDivider = s.shutoffDivider := by
  unfold completeBuffer; try dsimp only
  (repeat' split) <;> simp
@[simp] theorem completeBuffer_envelopeDivider (s : State) : (completeBuffer s).envelopeDivider = s.envelopeDivider := by
  unfold completeBuffer; try dsimp only
  (repeat' split) <;> simp
@[simp] theorem completeBuffer_consCursor (s : State) : (completeBuffer s).consCursor = s.consCursor := by
  unfold completeBuffer; try dsimp only
  (repeat' split) <;> simp
@[simp] theorem completeBuffer_muted (s : State) : (completeBuffer s).muted = s.muted := by
  unfold completeBuffer; try dsimp only
  (repeat' split) <;> simp
@[simp] theorem completeBuffer_paused (s : State) : (completeBuffer s).paused = s.paused := by
  unfold completeBuffer; try dsimp only
  (repeat' split) <;> simp
@[simp] theorem completeBuffer_pending (s : State) : (completeBuffer s).pending = s.pending := by
  unfold completeBuffer; try dsimp only
  (repeat' split) <;> simp
@[simp] theorem completeBuffer_returned (s : State) : (completeBuffer s).returned = s.returned := by
  unfold completeBuffer; try dsimp only
  (repeat' split) <;> simp

@[simp] theorem produceSample_cfg (s : State) : (produceSample s).cfg = s.cfg := by
  simp [produceSample]
@[simp] theorem produceSample_ram (s : State) : (produceSample s).ram = s.ram := by
  simp [produceSample]
@[simp] theorem produceSample_swp (s : State) : (produceSample s).swp = s.swp := by
  simp [produceSample]
@[simp] theorem produceSample_mem (s : State) : (produceSample s).mem = s.mem := by
  simp [produceSample]
@[simp] theorem produceSample_lastSynthesizedCycle (s : State) : (produceSample s).lastSynthesizedCycle = s.lastSynthesizedCycle := by
  simp [produceSample]
@[simp] theorem produceSample_consCursor (s : State) : (produceSample s).consCursor = s.consCursor := by
  simp [produceSample]
@[simp] theorem produceSample_muted (s : State) : (produceSample s).muted = s.muted := by
  simp [produceSample]
@[simp] theorem produceSample_paused (s : State) : (produceSample s).paused = s.paused := by
  simp [produceSample]
@[simp] theorem produceSample_pending (s : State) : (produceSample s).pending = s.pending := by
  simp [produceSample]
@[simp] theorem produceSample_returned (s : State) : (produceSample s).returned = s.returned := by
  simp [produceSample]

@[simp] theorem produceSamples_cfg (n : Nat) (s : State) : (produceSamples n s).cfg = s.cfg := by
  induction n generalizing s with
  | zero => rfl
  | succ n ih => simp [produceSamples, ih]
@[simp] theorem produceSamples_ram (n : Nat) (s : State) : (produceSamples n s).ram = s.ram := by
  induction n generalizing s with
  | zero => rfl
  | succ n ih => simp [produceSamples, ih]
@[simp] theorem produceSamples_swp (n : Nat) (s : State) : (produceSamples n s).swp = s.swp := by
  induction n generalizing s with
  | zero => rfl
  | succ n ih => simp [produceSamples, ih]
@[simp] theorem produceSamples_mem (n : Nat) (s : State) : (produceSamples n s).mem = s.mem := by
  induction n generalizing s with
  | zero => rfl
  | succ n ih => simp [produceSamples, ih]
@[simp] theorem produceSamples_lastSynthesizedCycle (n : Nat) (s : State) : (produceSamples n s).lastSynthesizedCycle = s.lastSynthesizedCycle := by
  induction n generalizing s with
  | zero => rfl
  | succ n ih => simp [produceSamples, ih]
@[simp] theorem produceSamples_consCursor (n : Nat) (s : State) : (produceSamples n s).consCursor = s.consCursor := by
  induction n generalizing s with
  | zero => rfl
  | succ n ih => simp [produceSamples, ih]
@[simp] theorem produceSamples_muted (n : Nat) (s : State) : (produceSamples n s).muted = s.muted := by
  induction n generalizing s with
  | zero => rfl
  | succ n ih => simp [produceSamples, ih]
@[simp] theorem produceSamples_paused (n : Nat) (s : State) : (produceSamples n s).paused = s.paused := by
  induction n generalizing s with
  | zero => rfl
  | succ n ih => simp [produceSamples, ih]
@[simp] theorem produceSamples_pending (n : Nat) (s : State) : (produceSamples n s).pending = s.pending := by
  induction n generalizing s with
  | zero => rfl
  | succ n ih => simp [produceSamples, ih]
@[simp] theorem produceSamples_returned (n : Nat) (s : State) : (produceSamples n s).returned = s.returned := by
  induction n generalizing s with
  | zero => rfl
  | succ n ih => simp [produceSamples, ih]

@[simp] theorem advance_cfg (s : State) (t : Cycle) : (advance t s).cfg = s.cfg := by
  unfold advance; try dsimp only
  (repeat' split) <;> simp
@[simp] theorem advance_ram (s : State) (t : Cycle) : (advance t s).ram = s.ram := by
  unfold advance; try dsimp only
  (repeat' split) <;> simp
@[simp] theorem advance_swp (s : State) (t : Cycle) : (advance t s).swp = s.swp := by
  unfold advance; try dsimp only
  (repeat' split) <;> simp
@[simp] theorem advance_mem (s : State) (t : Cycle) : (advance t s).mem = s.mem := by
  unfold advance; try dsimp only
  (repeat' split) <;> simp
@[simp] theorem advance_consCursor (s : State) (t : Cycle) : (advance t s).consCursor = s.consCursor := by
  unfold advance; try dsimp only
  (repeat' split) <;> simp
@[simp] theorem advance_muted (s : State) (t : Cycle) : (advance t s).muted = s.muted := by
  unfold advance; try dsimp only
  (repeat' split) <;> simp
@[simp] theorem advance_paused (s : State) (t : Cycle) : (advance t s).paused = s.paused := by
  unfold advance; try dsimp only
  (repeat' split) <;> simp
@[simp] theorem advance_pending (s : State) (t : Cycle) : (advance t s).pending = s.pending := by
  unfold advance; try dsimp only
  (repeat' split) <;> simp
@[simp] theorem advance_returned (s : State) (t : Cycle) : (advance t s).returned = s.returned := by
  unfold advance; try dsimp only
  (repeat' split) <;> simp

@[simp] theorem catchUp_cfg (s : State) (off : Offset) (t : Cycle) : (catchUp off t s).cfg = s.cfg := by
  unfold catchUp; try dsimp only
  (repeat' split) <;> simp
@[simp] theorem catchUp_ram (s : State) (off : Offset) (t : Cycle) : (catchUp off t s).ram = s.ram := by
  unfold catchUp; try dsimp only
  (repeat' split) <;> simp
@[simp] theorem catchUp_swp (s : State) (off : Offset) (t : Cycle) : (catchUp off t s).swp = s.swp := by
  unfold catchUp; try dsimp only
  (repeat' split) <;> simp
@[simp] theorem catchUp_mem (s : State) (off : Offset) (t : Cycle) : (catchUp off t s).mem = s.mem := by
  unfold catchUp; try dsimp only
  (repeat' split) <;> simp
@[simp] theorem catchUp_consCursor (s : State) (off : Offset) (t : Cycle) : (catchUp off t s).consCursor = s.consCursor := by
  unfold catchUp; try dsimp only
  (repeat' split) <;> simp
@[simp] theorem catchUp_muted (s : State) (off : Offset) (t : Cycle) : (catchUp off t s).muted = s.muted := by
  unfold catchUp; try dsimp only
  (repeat' split) <;> simp
@[simp] theorem catchUp_paused (s : State) (off : Offset) (t : Cycle) : (catchUp off t s).paused = s.paused := by
  unfold catchUp; try dsimp only
  (repeat' split) <;> simp
@[simp] theorem catchUp_pending (s : State) (off : Offset) (t : Cycle) : (catchUp off t s).pending = s.pending := by
  unfold catchUp; try dsimp only
  (repeat' split) <;> simp
@[simp] theorem catchUp_returned (s : State) (off : Offset) (t : Cycle) : (catchUp off t s).returned = s.returned := by
  unfold catchUp; try dsimp only
  (repeat' split) <;> simp

end Sys2Proof.Machine
end

