-- ==== Sys2Proof/Laws/Operands.lean ====
section
/-! SUPPORT. The fields of the registers as numbers (rules R12, R21 to R28, R86), and what clearing an enable bit
leaves. -/

namespace Sys2Proof.Machine

/-- INT bit 7 (rule R21). -/
theorem intEnable_iff (b : Byte) : intEnable b = true ↔ 128 ≤ b.toNat := by
  revert b; decide

/-- Clearing bit 7 disables (rules R123, R176, R184). -/
@[simp] theorem intEnable_clear (b : Byte) : intEnable (b &&& 127#8) = false := by
  revert b; decide

/-- Clearing bit 7 keeps the auto-shutoff bit. -/
@[simp] theorem intAutoShutoff_clear (b : Byte) : intAutoShutoff (b &&& 127#8) = intAutoShutoff b := by
  revert b; decide

/-- Clearing bit 7 keeps the other seven bits. -/
@[simp] theorem extract_clear (b : Byte) : (b &&& 127#8).extractLsb' 0 7 = b.extractLsb' 0 7 := by
  revert b; decide

/-- INT bits 4:0 (rule R21). -/
theorem intInterval_eq (b : Byte) : intInterval b = BitVec.ofNat 5 b.toNat := by
  revert b; decide

/-- LRV bits 7:4 (rule R22). -/
theorem panL_toNat (b : Byte) : (panL b).toNat = b.toNat / 16 := by
  revert b; decide

/-- LRV bits 3:0 (rule R22). -/
theorem panR_toNat (b : Byte) : (panR b).toNat = b.toNat % 16 := by
  revert b; decide

/-- EV0 bits 7:4 (rule R25). -/
theorem envInit_eq (b : Byte) : envInit b = BitVec.ofNat 4 (b.toNat / 16) := by
  revert b; decide

/-- EV0 bits 2:0 (rule R25). -/
theorem envInterval_toNat (b : Byte) : (envInterval b).toNat = b.toNat % 8 := by
  revert b; decide

/-- RAM bits 3:0 (rule R27). -/
theorem waveSel_toNat (b : Byte) : (waveSel b).toNat = b.toNat % 16 := by
  revert b; decide

/-- SWP bit 7 (rule R28). -/
theorem swpClk_iff (b : Byte) : swpClk b = true ↔ ¬ b.toNat < 128 := by
  revert b; decide

/-- SWP bits 6:4 (rule R28). -/
theorem swpInterval_toNat (b : Byte) : (swpInterval b).toNat = b.toNat / 16 % 8 := by
  revert b; decide

/-- SWP bits 2:0 (rule R28). -/
theorem swpShift_toNat (b : Byte) : (swpShift b).toNat = b.toNat % 8 := by
  revert b; decide

/-- FQH bits 2:0 (rule R24). -/
theorem freqHigh_toNat (b : Byte) : (freqHigh b).toNat = b.toNat % 8 := by
  revert b; decide

/-- A table byte's level (rules R30, R152). -/
theorem waveLevel_eq (b : Byte) : waveLevel b = b.toNat % 64 := by
  revert b; decide

/-- A level fits six bits (rule R152). -/
theorem waveLevel_le (b : Byte) : waveLevel b ≤ 63 := by
  revert b; decide

/-- Three high bits above a byte, as a number (rules R86, R112, R113). -/
theorem append_byte_toNat (h : BitVec 3) (l : Byte) :
    (h ++ l : BitVec 11).toNat = 256 * h.toNat + l.toNat := by
  have hl := l.isLt
  rw [BitVec.toNat_append, Nat.shiftLeft_eq, Nat.mul_comm]
  exact (Nat.two_pow_add_eq_or_of_lt hl h.toNat).symm

/-- `FreqReg` as a number (rules R12, R86). -/
theorem freqReg_toNat (ch : Channel) : (freqReg ch).toNat = 256 * (ch.fqh.toNat % 8) + ch.fql.toNat := by
  rw [freqReg, append_byte_toNat, freqHigh_toNat]

/-- The sweep interval as a number (rules R28, R86). -/
theorem sweepInterval_eq (cfg : Params) (b : Byte) :
    sweepInterval cfg b = (b.toNat / 16 % 8) * (if b.toNat < 128 then cfg.sweepClk0 else cfg.sweepClk1) := by
  have h := swpClk_iff b
  unfold sweepInterval
  rw [swpInterval_toNat]
  by_cases hb : b.toNat < 128 <;> simp_all

/-- The sweep interval is at most seven of the longer ticks (rule R39). -/
theorem sweepInterval_le (cfg : Params) (b : Byte) :
    sweepInterval cfg b ≤ 7 * max cfg.sweepClk0 cfg.sweepClk1 := by
  rw [sweepInterval_eq]
  apply Nat.mul_le_mul (by omega)
  split <;> omega

/-- A disabled channel, its other registers kept (rules R123, R176, R184). -/
@[simp] theorem channelRegs_clearEnable (ch : Channel) : channelRegs (clearEnable ch) = channelRegs ch := by
  simp [channelRegs, clearEnable]

/-- A cleared channel is disabled. -/
@[simp] theorem clearEnable_disabled (ch : Channel) : intEnable (clearEnable ch).int = false := by
  simp [clearEnable]

/-- A period is at least one cycle (rule R146). -/
theorem period_pos {s : State} (h : s.cfg.Valid) (c : Chan) : 1 ≤ period s c := by
  obtain ⟨-, -, -, -, hw, hn, -⟩ := h
  have hf : ∀ x : BitVec 11, 1 ≤ 2048 - x.toNat := fun x => by have := x.isLt; omega
  unfold period
  split
  · exact Nat.mul_le_mul (hf _) hn
  · split <;> exact Nat.mul_le_mul (hf _) hw

/-- A period is at most the longest one (rules R33, R146). -/
theorem period_le (s : State) (c : Chan) : period s c ≤ maxPeriod s.cfg c := by
  unfold period maxPeriod
  split
  · exact Nat.mul_le_mul_right _ (Nat.sub_le _ _)
  · split <;> exact Nat.mul_le_mul_right _ (Nat.sub_le _ _)

end Sys2Proof.Machine
end

