-- ==== Sys2Proof/Laws/Effects.lean ====
section
/-! SUPPORT. What each effects stage can do, once for each of them (rules R170 to R189). -/

namespace Sys2Proof.Machine

/-- What an effects tick can do to a channel: its registers and its frequency timer stay, and it is enabled only
if it was (rules R171, R191). -/
structure TickedFrom (ch ch' : Channel) : Prop where
  regs : channelRegs ch' = channelRegs ch
  timer : ch'.frequencyTimer = ch.frequencyTimer
  enable : intEnable ch'.int = true → intEnable ch.int = true

theorem TickedFrom.refl (ch : Channel) : TickedFrom ch ch := ⟨rfl, rfl, id⟩

theorem TickedFrom.trans {a b c : Channel} (h : TickedFrom a b) (k : TickedFrom b c) : TickedFrom a c :=
  ⟨k.regs.trans h.regs, k.timer.trans h.timer, fun e => h.enable (k.enable e)⟩

theorem TickedFrom.clear (ch : Channel) : TickedFrom ch (clearEnable ch) :=
  ⟨channelRegs_clearEnable ch, rfl, fun h => by simp at h⟩

/-- A counter other than 0 is counted down (rule R184). -/
theorem shutoffChannel_count {ch : Channel} (he : intEnable ch.int = true) (ha : intAutoShutoff ch.int = true)
    (ht : ch.shutoffTimer ≠ 0) : shutoffChannel ch = { ch with shutoffTimer := ch.shutoffTimer - 1 } := by
  have h : ch.shutoffTimer - 1 ≠ 0x1F := by
    generalize ch.shutoffTimer = t at ht
    revert t; decide
  unfold shutoffChannel
  rw [if_pos (by simp [he, ha])]
  exact if_neg h

/-- A counter of 0 wraps and disables the channel (rules R184, R185). -/
theorem shutoffChannel_expire {ch : Channel} (he : intEnable ch.int = true) (ha : intAutoShutoff ch.int = true)
    (ht : ch.shutoffTimer = 0) : shutoffChannel ch = clearEnable { ch with shutoffTimer := 0x1F } := by
  simp [shutoffChannel, he, ha, ht]

/-- A disabled channel, or one in sustain mode, is left alone (rule R184). -/
theorem shutoffChannel_idle {ch : Channel} (h : intEnable ch.int = false ∨ intAutoShutoff ch.int = false) :
    shutoffChannel ch = ch := by
  rcases h with h | h <;> simp [shutoffChannel, h]

theorem shutoffChannel_ticked (ch : Channel) : TickedFrom ch (shutoffChannel ch) := by
  unfold shutoffChannel
  split
  · dsimp only
    split
    · exact ⟨by simp [channelRegs, clearEnable], rfl, fun h => by simp at h⟩
    · exact ⟨rfl, rfl, id⟩
  · exact TickedFrom.refl ch

/-- A channel that is disabled, not envelope-enabled or frozen is left alone (rule R186). -/
theorem envelopeChannel_idle {ch : Channel}
    (h : intEnable ch.int = false ∨ envEnable ch.ev1 = false ∨ ch.envelopeFrozen = true) :
    envelopeChannel ch = ch := by
  rcases h with h | h | h <;> simp [envelopeChannel, h]

/-- A running envelope timer is counted down (rule R187). -/
theorem envelopeChannel_count {ch : Channel} (he : intEnable ch.int = true) (hv : envEnable ch.ev1 = true)
    (hf : ch.envelopeFrozen = false) (ht : ch.envelopeTimer ≠ 0) :
    envelopeChannel ch = { ch with envelopeTimer := ch.envelopeTimer - 1 } := by
  unfold envelopeChannel
  rw [if_pos (by simp [he, hv, hf]), if_neg ht]

/-- An envelope timer at 0 is reloaded and the envelope steps (rules R186, R187). -/
theorem envelopeChannel_step {ch : Channel} (he : intEnable ch.int = true) (hv : envEnable ch.ev1 = true)
    (hf : ch.envelopeFrozen = false) (ht : ch.envelopeTimer = 0) :
    envelopeChannel ch = envelopeStep { ch with envelopeTimer := envInterval ch.ev0 } := by
  simp [envelopeChannel, he, hv, hf, ht]

/-- A step up that does not saturate (rule R186). -/
theorem envelopeStep_up {ch : Channel} (hd : envDir ch.ev0 = true) (h : ch.envelopeValue.toNat < 15) :
    envelopeStep ch = { ch with envelopeValue := BitVec.ofNat 4 (ch.envelopeValue.toNat + 1) } := by
  unfold envelopeStep envelopeTarget
  simp only [hd, if_true]
  rw [if_neg (by omega)]
  rfl

/-- A step down that does not saturate (rule R186). -/
theorem envelopeStep_down {ch : Channel} (hd : envDir ch.ev0 = false) (h : 0 < ch.envelopeValue.toNat) :
    envelopeStep ch = { ch with envelopeValue := BitVec.ofNat 4 (ch.envelopeValue.toNat - 1) } := by
  unfold envelopeStep envelopeTarget
  simp only [hd, Bool.false_eq_true, if_false]
  rw [if_neg (by omega)]
  have : ((ch.envelopeValue.toNat : Int) - 1) = ((ch.envelopeValue.toNat - 1 : Nat) : Int) := by omega
  rw [this]
  rfl

/-- A step that saturates reloads the value with repeat and freezes it without (rules R188, R189). -/
theorem envelopeStep_saturated {ch : Channel}
    (h : (envDir ch.ev0 = true ∧ ch.envelopeValue.toNat = 15) ∨
      (envDir ch.ev0 = false ∧ ch.envelopeValue.toNat = 0)) :
    envelopeStep ch =
      if envRepeat ch.ev1 then { ch with envelopeValue := envInit ch.ev0 } else { ch with envelopeFrozen := true } := by
  unfold envelopeStep envelopeTarget
  rcases h with ⟨hd, hv⟩ | ⟨hd, hv⟩ <;> simp [hd, hv]

theorem envelopeStep_ticked (ch : Channel) : TickedFrom ch (envelopeStep ch) := by
  unfold envelopeStep
  dsimp only
  split
  · split <;> exact ⟨rfl, rfl, id⟩
  · exact ⟨rfl, rfl, id⟩

theorem envelopeChannel_ticked (ch : Channel) : TickedFrom ch (envelopeChannel ch) := by
  unfold envelopeChannel
  split
  · split
    · exact TickedFrom.trans (b := { ch with envelopeTimer := envInterval ch.ev0 }) ⟨rfl, rfl, id⟩
        (envelopeStep_ticked _)
    · exact ⟨rfl, rfl, id⟩
  · exact TickedFrom.refl ch

@[simp] theorem shutoffStage_ch (s : State) (c : Chan) : (shutoffStage s).ch c = shutoffChannel (s.ch c) :=
  ch_map s shutoffChannel c

@[simp] theorem envelopeStage_ch (s : State) (c : Chan) : (envelopeStage s).ch c = envelopeChannel (s.ch c) :=
  ch_map s envelopeChannel c

@[simp] theorem intervalStep_ch (s : State) (c : Chan) : (intervalStep s).ch c = s.ch c :=
  ch_congr (intervalStep_chan s) c

/-- The sweep/modulation stage changes no channel but channel 4, and that one at most by disabling it (rule R176). -/
theorem sweepModStage_ch (s : State) (c : Chan) :
    (sweepModStage s).ch c =
      if c = chSweep ∧ enabled s chSweep = true ∧ sweepOverflow s = true then clearEnable (s.ch c) else s.ch c := by
  unfold sweepModStage
  by_cases he : enabled s chSweep = true
  · rw [if_pos he, intervalStep_ch]
    unfold sweepCheck
    by_cases ho : sweepOverflow s = true
    · rw [if_pos ho, ch_setCh]
      by_cases hc : c = chSweep
      · simp [hc, he, ho]
      · simp [hc, Ne.symm hc]
    · rw [if_neg ho]; simp [ho]
  · rw [if_neg he]; simp [he]

theorem sweepModStage_ticked (s : State) (c : Chan) : TickedFrom (s.ch c) ((sweepModStage s).ch c) := by
  rw [sweepModStage_ch]
  split
  · exact TickedFrom.clear _
  · exact TickedFrom.refl _

theorem envelopeCascade_ticked (s : State) (c : Chan) : TickedFrom (s.ch c) ((envelopeCascade s).ch c) := by
  unfold envelopeCascade
  split
  · exact TickedFrom.refl _
  · rw [envelopeStage_ch]; exact envelopeChannel_ticked _

theorem shutoffCascade_ticked (s : State) (c : Chan) : TickedFrom (s.ch c) ((shutoffCascade s).ch c) := by
  unfold shutoffCascade
  split
  · exact TickedFrom.refl _
  · refine TickedFrom.trans ?_ (envelopeCascade_ticked _ c)
    rw [shutoffStage_ch]; exact shutoffChannel_ticked _

/-- An effects tick, channel by channel (rules R171, R191). -/
theorem effectsTick_ticked (s : State) (c : Chan) : TickedFrom (s.ch c) ((effectsTick s).ch c) :=
  TickedFrom.trans (sweepModStage_ticked s c)
    (shutoffCascade_ticked { sweepModStage s with modulationLock := .none } c)

/-- The interval step when the timer does not run (rule R177). -/
theorem intervalStep_stopped {s : State}
    (h : modEnable (s.ch chSweep).ev1 = false ∨ swpInterval s.swp = 0) : intervalStep s = s := by
  unfold intervalStep
  rcases h with h | h <;> simp [h]

/-- The interval step before the timer expires (rule R177). -/
theorem intervalStep_count {s : State} (hm : modEnable (s.ch chSweep).ev1 = true) (hi : swpInterval s.swp ≠ 0)
    (ht : 1 < s.sweepTimer) : intervalStep s = { s with sweepTimer := s.sweepTimer - 1 } := by
  unfold intervalStep
  rw [if_pos (by rw [hm, Bool.true_and]; exact bne_iff_ne.mpr hi), if_neg (by omega)]

/-- The interval step at an expiry (rules R177 to R182). -/
theorem intervalStep_expire {s : State} (hm : modEnable (s.ch chSweep).ev1 = true) (hi : swpInterval s.swp ≠ 0)
    (ht : s.sweepTimer ≤ 1) :
    intervalStep s = expiryCounter (expiryFrequency { s with sweepTimer := sweepInterval s.cfg s.swp }) := by
  unfold intervalStep
  rw [if_pos (by rw [hm, Bool.true_and]; exact bne_iff_ne.mpr hi), if_pos ht]

/-- The timer of a stage is the old one, one less, or the whole interval (rule R177). -/
theorem sweepModStage_sweepTimer_le (s : State)
    (h : s.sweepTimer ≤ 7 * max s.cfg.sweepClk0 s.cfg.sweepClk1) :
    (sweepModStage s).sweepTimer ≤ 7 * max s.cfg.sweepClk0 s.cfg.sweepClk1 := by
  unfold sweepModStage
  split
  · unfold intervalStep
    split
    · split
      · simpa using sweepInterval_le s.cfg s.swp
      · simpa using Nat.le_trans (Nat.sub_le _ _) h
    · simpa using h
  · exact h

/-- The candidate as a number (rule R175). -/
theorem sweepCandidate_eq (s : State) :
    sweepCandidate s =
      if swpDir s.swp then s.sweepFrequency.toNat + s.sweepFrequency.toNat / 2 ^ (s.swp.toNat % 8)
      else s.sweepFrequency.toNat - s.sweepFrequency.toNat / 2 ^ (s.swp.toNat % 8) := by
  unfold sweepCandidate
  simp only [Nat.shiftRight_eq_div_pow, swpShift_toNat]

/-- The modulated frequency as a number (rule R180). -/
theorem modulatedBase_toNat (s : State) :
    ((modulatedBase s).toNat : Int) =
      ((freqReg (s.ch chSweep)).toNat + (s.mod s.modulationCounter).toInt) % 2048 := by
  unfold modulatedBase sext8
  rw [BitVec.toNat_ofInt, Int.toNat_of_nonneg (by omega)]
  rfl

end Sys2Proof.Machine
end

