-- ==== Sys2Proof/Laws/Encoding.lean ====
section
/-! SUPPORT. The transaction an instruction is encoded as: its offset, its operand and its stamp (rules R61, R86,
R93, R103); the address window. -/

namespace Sys2Proof

/-- The offset of an encoded transaction is the one it was encoded from (rules R61, R93). -/
theorem extract_encoded_offset (off : Offset) : (windowBase + off.zeroExtend 32).extractLsb' 0 11 = off := by
  apply BitVec.eq_of_toNat_eq
  simp only [BitVec.extractLsb'_toNat, BitVec.toNat_add, BitVec.toNat_setWidth, Nat.shiftRight_zero]
  have h := off.isLt
  have h2 : (windowBase).toNat = 0x01000000 := rfl
  rw [h2]
  omega

/-- The operand of an encoded transaction is the one it was encoded from (rules R86, R103). -/
theorem extract_encoded_operand (v : Byte) : (v.zeroExtend 16).extractLsb' 0 8 = v := by
  apply BitVec.eq_of_toNat_eq
  simp only [BitVec.extractLsb'_toNat, BitVec.toNat_setWidth, Nat.shiftRight_zero]
  have h := v.isLt
  omega

/-- Decoding looks at the stamp, the offset and the operand of a transaction alone (rules R61, R103). -/
theorem decodeWrite_congr {t u : WriteTransaction} (hn : t.now = u.now) (ho : t.offset = u.offset)
    (hv : t.operand = u.operand) : decodeWrite t = decodeWrite u := by
  unfold decodeWrite
  rw [hn, ho, hv]

/-- The window changes no stamp. -/
@[simp] theorem PortOp.inWindow_stamp (mask : Offset) (op : PortOp) : (op.inWindow mask).stamp = op.stamp := by
  cases op <;> rfl

/-- Through a window a transaction's offset is masked (rules R17, R61). -/
theorem offset_inWindow (mask : Offset) (t : WriteTransaction) :
    WriteTransaction.offset { t with address := t.address &&& mask.zeroExtend 32 } = t.offset &&& mask := by
  apply BitVec.eq_of_getLsbD_eq
  intro i hi
  simp only [WriteTransaction.offset, BitVec.zeroExtend, BitVec.getLsbD_extractLsb', BitVec.getLsbD_and,
    BitVec.getLsbD_setWidth, Nat.zero_add]
  simp [hi, show i < 32 by omega]

/-- The window of the default parameters changes nothing that decoding looks at (rules R7, R61). -/
theorem decode_inWindow_default (op : PortOp) : decode (op.inWindow 0x7FF) = decode op := by
  cases op <;> try rfl
  rename_i t
  refine decodeWrite_congr rfl ?_ rfl
  rw [offset_inWindow]
  exact BitVec.and_allOnes

/-- Decoding keeps the stamp (rules R15, R80). -/
theorem decode_stamp (op : PortOp) : (encode (decode op)).stamp = op.stamp := by
  cases op <;> try rfl
  rename_i t
  show (encode (decodeWrite t)).stamp = t.now
  unfold decodeWrite decodeTable decodeBlock0 decodeBlock1 decodeBlock2 decodeBlock3 decodeBlock4 decodeBlock5
    decodeHigh
  dsimp only
  repeat' split
  all_goals rfl

end Sys2Proof
end

