-- ==== Sys2Proof/Laws/Memory.lean ====
section
/-! SUPPORT. The tables' memory: read over write, and the canonical form that every write keeps. -/

namespace Sys2Proof.Machine

/-- A memory all of whose keys lie above `a` does not list `a`. -/
theorem Memory.read_below {m : Memory} {a : Nat} (h : ∀ p ∈ m, a < p.1) : Memory.read m a = unlistedByte := by
  induction m with
  | nil => rfl
  | cons p m ih =>
    have h1 := h p (by simp)
    simp only [Memory.read]
    rw [if_neg (by omega)]
    exact ih fun q hq => h q (by simp [hq])

/-- The canonical form, taken apart. -/
theorem Memory.wf_cons {p : Host.Cell} {m : Memory} :
    Memory.wf (p :: m) = true ↔ p.2 ≠ unlistedByte ∧ (∀ q ∈ m, p.1 < q.1) ∧ Memory.wf m = true := by
  obtain ⟨k, b⟩ := p
  simp [Memory.wf, and_assoc]

/-- A write changes what the written key reads as (rules R106 to R108). -/
theorem Memory.read_write_same {m : Memory} (h : Memory.wf m = true) (a : Nat) (b : Byte) :
    Memory.read (Memory.write m a b) a = b := by
  induction m with
  | nil =>
    simp only [Memory.write]
    split
    · next hb => simp [Memory.read, hb]
    · simp [Memory.read]
  | cons p m ih =>
    obtain ⟨k, x⟩ := p
    obtain ⟨-, hk, hm⟩ := Memory.wf_cons.mp h
    simp only [Memory.write]
    split
    · next hlt =>
      split
      · next hb =>
        rw [hb]
        apply Memory.read_below
        intro q hq
        rcases List.mem_cons.mp hq with rfl | hq
        · exact hlt
        · exact Nat.lt_trans hlt (hk q hq)
      · simp [Memory.read]
    · split
      · next heq =>
        subst heq
        split
        · next hb => rw [hb]; exact Memory.read_below hk
        · simp [Memory.read]
      · next hne =>
        simp only [Memory.read]
        rw [if_neg (by omega)]
        exact ih hm

/-- A write leaves every other key as it was. -/
theorem Memory.read_write_other {m : Memory} (a a' : Nat) (b : Byte) (h : a' ≠ a) :
    Memory.read (Memory.write m a b) a' = Memory.read m a' := by
  induction m with
  | nil =>
    simp only [Memory.write]
    split
    · rfl
    · simp [Memory.read, Ne.symm h]
  | cons p m ih =>
    obtain ⟨k, x⟩ := p
    simp only [Memory.write]
    split
    · split
      · rfl
      · simp [Memory.read, Ne.symm h]
    · split
      · next heq =>
        subst heq
        split <;> simp [Memory.read, Ne.symm h]
      · simp only [Memory.read, ih]

/-- The keys a write can list. -/
theorem Memory.mem_write {m : Memory} {a : Nat} {b : Byte} {p : Host.Cell} (h : p ∈ Memory.write m a b) :
    p.1 = a ∨ p ∈ m := by
  induction m with
  | nil =>
    simp only [Memory.write] at h
    split at h
    · simp at h
    · simp at h; simp [h]
  | cons q m ih =>
    obtain ⟨k, x⟩ := q
    simp only [Memory.write] at h
    split at h
    · split at h
      · exact .inr h
      · rcases List.mem_cons.mp h with rfl | h
        · exact .inl rfl
        · exact .inr h
    · split at h
      · split at h
        · exact .inr (List.mem_cons_of_mem _ h)
        · rcases List.mem_cons.mp h with rfl | h
          · exact .inl rfl
          · exact .inr (List.mem_cons_of_mem _ h)
      · rcases List.mem_cons.mp h with rfl | h
        · exact .inr (by simp)
        · rcases ih h with h | h
          · exact .inl h
          · exact .inr (List.mem_cons_of_mem _ h)

/-- A write keeps the canonical form. -/
theorem Memory.write_wf {m : Memory} (h : Memory.wf m = true) (a : Nat) (b : Byte) :
    Memory.wf (Memory.write m a b) = true := by
  induction m with
  | nil =>
    simp only [Memory.write]
    split
    · rfl
    · next hb => simp [Memory.wf, hb]
  | cons p m ih =>
    obtain ⟨k, x⟩ := p
    have hc := Memory.wf_cons.mp h
    obtain ⟨hx, hk, hm⟩ := hc
    simp only [Memory.write]
    split
    · next hlt =>
      split
      · exact h
      · next hb =>
        refine Memory.wf_cons.mpr ⟨hb, ?_, h⟩
        intro q hq
        rcases List.mem_cons.mp hq with rfl | hq
        · exact hlt
        · exact Nat.lt_trans hlt (hk q hq)
    · split
      · next heq =>
        subst heq
        split
        · exact hm
        · next hb => exact Memory.wf_cons.mpr ⟨hb, hk, hm⟩
      · next hne =>
        refine Memory.wf_cons.mpr ⟨hx, ?_, ih hm⟩
        intro q hq
        rcases Memory.mem_write hq with he | hq
        · rw [he]; show k < a; omega
        · exact hk q hq

/-- The memory after reset is canonical (rule R58). -/
theorem reset_mem_wf : Memory.wf State.reset.mem = true := rfl

end Sys2Proof.Machine
end

