-- ==== Sys2Proof/Laws/PostProcess.lean ====
section
/-! SUPPORT. What post-processing does to one frame and to a buffer (rules R200 to R208). -/

namespace Sys2Proof.Machine

/-- A scaled lane is not negative (rule R201). -/
theorem scaleLane_nonneg (x : Lane) : 0 ≤ scaleLane x := Int.natCast_nonneg _

/-- The scaling as a number (rule R201). -/
theorem scaleLane_eq (x : Lane) : scaleLane x = ((x.toNat / 16 : Nat) : Int) * 95 := by
  unfold scaleLane scaleShift scaleMul
  rw [Nat.shiftRight_eq_div_pow, Int.natCast_mul]
  rfl

/-- The steady correction of a positive accumulator: its share, rounded up, at least 1 and at most all of it
(rule R203). -/
theorem steadyCorrection_pos {d : Nat} {dc : Int} (hd : 1 ≤ d) (h : 0 < dc) :
    ∃ n : Nat, steadyCorrection d dc = n ∧ 1 ≤ n ∧ (n : Int) ≤ dc ∧ n = (dc.natAbs + (d - 1)) / d := by
  refine ⟨(dc.natAbs + (d - 1)) / d, ?_, ?_, ?_, rfl⟩
  · rw [steadyCorrection, Int.sign_eq_one_of_pos h, Int.one_mul]
  · exact (Nat.one_le_div_iff hd).mpr (by omega)
  · have : (dc.natAbs + (d - 1)) / d ≤ dc.natAbs := by
      apply Nat.le_of_lt_succ
      rw [Nat.div_lt_iff_lt_mul hd]
      have h2 : dc.natAbs ≤ dc.natAbs * d := Nat.le_mul_of_pos_right _ hd
      rw [Nat.succ_mul]; omega
    omega

/-- The steady correction of the opposite accumulator is the opposite (rule R203). -/
theorem steadyCorrection_neg (d : Nat) (dc : Int) : steadyCorrection d (-dc) = -steadyCorrection d dc := by
  simp [steadyCorrection, Int.sign_neg]

/-- A settled accumulator has no correction (rule R207). -/
@[simp] theorem steadyCorrection_zero (d : Nat) : steadyCorrection d 0 = 0 := by
  simp [steadyCorrection]

/-- A frame with a settled accumulator is only scaled (rule R207). -/
@[simp] theorem postFrame_zero (d : Nat) (f : Frame) :
    postFrame d 0 f = (⟨wrap16 (scaleLane f.l), wrap16 (scaleLane f.r)⟩, 0) := by
  simp [postFrame]

/-- The correction of a frame is the steady one, or the smaller scaled lane when that one is smaller than the
steady correction (rules R203, R204). -/
theorem dcCorrection_cases (d : Nat) (dc sl sr : Int) :
    (steadyCorrection d dc ≤ sl ∧ steadyCorrection d dc ≤ sr ∧
      dcCorrection d dc (sl + dc) (sr + dc) = steadyCorrection d dc) ∨
    ((sl < steadyCorrection d dc ∨ sr < steadyCorrection d dc) ∧
      dcCorrection d dc (sl + dc) (sr + dc) = min sl sr) := by
  unfold dcCorrection
  dsimp only
  split
  · right
    refine ⟨by omega, by omega⟩
  · left
    exact ⟨by omega, by omega, rfl⟩

/-- One frame moves a non-negative accumulator toward 0 or leaves it, never across (rule R206). -/
theorem postFrame_nonneg {d : Nat} {dc : Int} (hd : 1 ≤ d) (h : 0 ≤ dc) (f : Frame) :
    0 ≤ (postFrame d dc f).2 ∧ (postFrame d dc f).2 ≤ dc := by
  have hl := scaleLane_nonneg f.l
  have hr := scaleLane_nonneg f.r
  unfold postFrame
  dsimp only
  split
  · exact ⟨h, Int.le_refl _⟩
  · obtain ⟨n, hn, h1, h2, -⟩ := steadyCorrection_pos hd (dc := dc) (by omega)
    rcases dcCorrection_cases d dc (scaleLane f.l) (scaleLane f.r) with ⟨-, -, e⟩ | ⟨hc, e⟩
    · dsimp only; rw [e]; omega
    · dsimp only; rw [e]; omega

/-- One frame moves a non-positive accumulator toward 0 or leaves it, never across (rule R206). -/
theorem postFrame_nonpos {d : Nat} {dc : Int} (hd : 1 ≤ d) (h : dc ≤ 0) (f : Frame) :
    dc ≤ (postFrame d dc f).2 ∧ (postFrame d dc f).2 ≤ 0 := by
  have hl := scaleLane_nonneg f.l
  have hr := scaleLane_nonneg f.r
  unfold postFrame
  dsimp only
  split
  · exact ⟨Int.le_refl _, h⟩
  · obtain ⟨n, hn, h1, h2, -⟩ := steadyCorrection_pos hd (dc := -dc) (by omega)
    rw [steadyCorrection_neg] at hn
    rcases dcCorrection_cases d dc (scaleLane f.l) (scaleLane f.r) with ⟨-, -, e⟩ | ⟨hc, e⟩
    · dsimp only; rw [e]; omega
    · omega

/-- A buffer keeps its number of frames (rule R200). -/
@[simp] theorem postFrames_length (d : Nat) (dc : Int) (fs : List Frame) :
    (postFrames d dc fs).1.length = fs.length := by
  induction fs generalizing dc with
  | nil => rfl
  | cons f fs ih => simp [postFrames, ih]

/-- The accumulator after a buffer and one more frame in front (rule R200). -/
@[simp] theorem postFrames_cons_snd (d : Nat) (dc : Int) (f : Frame) (fs : List Frame) :
    (postFrames d dc (f :: fs)).2 = (postFrames d (postFrame d dc f).2 fs).2 := rfl

/-- The frames of a buffer with one more frame in front (rule R200). -/
@[simp] theorem postFrames_cons_fst (d : Nat) (dc : Int) (f : Frame) (fs : List Frame) :
    (postFrames d dc (f :: fs)).1 = (postFrame d dc f).1 :: (postFrames d (postFrame d dc f).2 fs).1 := rfl

end Sys2Proof.Machine
end

