-- ==== Sys2Proof/Laws/Ring.lean ====
section
/-! SUPPORT. The ring: what a stored frame, a completed buffer, a hand-off and a CONSUME can do (rules R158, R215
to R227). -/

namespace Sys2Proof.Machine

/-- A readiness flag after one was set. -/
theorem readyAt_setReady (s : State) (j k : Nat) (b : Bool) :
    (setReady j b s).readyAt k = if j = k ∧ k < s.ready.length then b else s.readyAt k := by
  unfold setReady State.readyAt
  simp only [List.getD_eq_getElem?_getD, List.getElem?_set]
  by_cases hj : j = k
  · subst hj
    by_cases hl : j < s.ready.length
    · simp [hl]
    · simp [hl]
  · simp [hj]

/-- A buffer after a frame was stored. -/
theorem bufAt_storeFrame (f : Frame) (s : State) (k : Nat) :
    (storeFrame f s).bufAt k =
      if s.prodCursor = k ∧ k < s.buf.length then (s.bufAt k).set s.fillPos f else s.bufAt k := by
  unfold storeFrame State.bufAt
  simp only [List.getD_eq_getElem?_getD, List.getElem?_set]
  by_cases hj : s.prodCursor = k
  · subst hj
    by_cases hl : s.prodCursor < s.buf.length
    · simp [hl]
    · simp [hl]
  · simp [hj]

/-- A buffer after the producer's buffer was post-processed (rule R209). -/
theorem bufAt_postProcess (s : State) (k : Nat) :
    (postProcess s).bufAt k =
      if s.prodCursor = k ∧ k < s.buf.length then (postFrames s.cfg.dcBlendDiv s.dcOffset (s.bufAt k)).1
      else s.bufAt k := by
  unfold postProcess State.bufAt
  simp only [List.getD_eq_getElem?_getD, List.getElem?_set]
  by_cases hj : s.prodCursor = k
  · subst hj
    by_cases hl : s.prodCursor < s.buf.length
    · simp [hl]
    · simp [hl]
  · simp [hj]

/-- A hand-off publishes the producer's buffer and moves on, or does nothing (rules R215, R216). -/
theorem handOff_cases (s : State) :
    (s.readyAt (nextIndex s s.prodCursor) = true ∧ handOff s = s) ∨
    (s.readyAt (nextIndex s s.prodCursor) = false ∧
      handOff s =
        { s with ready := s.ready.set s.prodCursor true, prodCursor := nextIndex s s.prodCursor }) := by
  unfold handOff
  cases h : s.readyAt (nextIndex s s.prodCursor) with
  | true => exact .inl ⟨rfl, rfl⟩
  | false => exact .inr ⟨rfl, rfl⟩

/-- A buffer that is not complete is left alone; a complete one is post-processed and handed off (rule R142). -/
theorem completeBuffer_cases (s : State) :
    (s.fillPos ≠ s.cfg.frames ∧ completeBuffer s = s) ∨
    (s.fillPos = s.cfg.frames ∧ completeBuffer s = { handOff (postProcess s) with fillPos := 0 }) := by
  unfold completeBuffer
  by_cases h : s.fillPos = s.cfg.frames
  · exact .inr ⟨h, if_pos h⟩
  · exact .inl ⟨h, if_neg h⟩

/-- Completing a buffer writes the ring, its cursors and the accumulator alone (rules R142, R209, R215). -/
theorem completeBuffer_shape (s : State) :
    ∃ b d r p f, completeBuffer s = { s with buf := b, dcOffset := d, ready := r, prodCursor := p, fillPos := f } := by
  rcases completeBuffer_cases s with ⟨-, e⟩ | ⟨-, e⟩
  · exact ⟨_, _, _, _, _, e⟩
  · rcases handOff_cases (postProcess s) with ⟨-, h⟩ | ⟨-, h⟩ <;> rw [e, h] <;> exact ⟨_, _, _, _, _, rfl⟩

/-- CONSUME answers silence while paused, takes the buffer at the cursor when it is ready, and answers silence on
an underrun (rules R222 to R226). -/
theorem consume_cases (s : State) :
    (s.paused = true ∧ consume s = { s with returned := some (silence s) }) ∨
    (s.paused = false ∧ s.readyAt s.consCursor = false ∧ consume s = { s with returned := some (silence s) }) ∨
    (s.paused = false ∧ s.readyAt s.consCursor = true ∧
      consume s =
        { s with
          ready := s.ready.set s.consCursor false
          consCursor := nextIndex s s.consCursor
          returned := some (if s.muted then silence s else s.bufAt s.consCursor) }) := by
  unfold consume
  by_cases hp : s.paused = true
  · exact .inl ⟨hp, if_pos hp⟩
  · right
    rw [if_neg hp]
    by_cases hr : s.readyAt s.consCursor = true
    · exact .inr ⟨by simpa using hp, hr, if_pos hr⟩
    · exact .inl ⟨by simpa using hp, by simpa using hr, if_neg hr⟩

/-- The queue depends on the ring alone. -/
theorem ringQueue_congr {s t : State} (hc : t.cfg = s.cfg) (hb : t.buf = s.buf) (hp : t.prodCursor = s.prodCursor)
    (hk : t.consCursor = s.consCursor) : ringQueue t = ringQueue s := by
  simp [ringQueue, queueLength, State.bufAt, hc, hb, hp, hk]

/-- The queue is shorter than the ring. -/
theorem queueLength_lt {s : State} (h : 1 ≤ s.cfg.nBuf) : queueLength s < s.cfg.nBuf := Nat.mod_lt _ h

/-- The oldest queued buffer, if there is one, is the one at the consumer's cursor. -/
theorem ringQueue_head {s : State} (hc : s.consCursor < s.cfg.nBuf) (h : 0 < queueLength s) :
    ∃ q, ringQueue s = s.bufAt s.consCursor :: q := by
  unfold ringQueue
  obtain ⟨n, hn⟩ : ∃ n, queueLength s = n + 1 := ⟨queueLength s - 1, by omega⟩
  rw [hn, List.range_succ_eq_map, List.map_cons]
  exact ⟨_, by rw [Nat.add_zero, Nat.mod_eq_of_lt hc]⟩

/-- The queue has as many buffers as the cursors say. -/
@[simp] theorem ringQueue_length (s : State) : (ringQueue s).length = queueLength s := by
  simp [ringQueue]

end Sys2Proof.Machine
end

