-- ==== Sys2Proof/Laws/Synthesis.lean ====
section
/-! SUPPORT. What the stages of a sample can do, once for each of them (rules R142 to R158). -/

namespace Sys2Proof.Machine

/-- Writing a channel's own timer changes nothing. -/
theorem setTimer_self (s : State) (c : Chan) : setTimer c (s.ch c).frequencyTimer s = s := by
  have h : s.chan.set c (s.ch c) = s.chan := Vector.set_getElem_self c.isLt
  show { s with chan := s.chan.set c (s.ch c) } = s
  rw [h]

@[simp] theorem setTimer_setTimer (s : State) (c : Chan) (m n : Nat) :
    setTimer c m (setTimer c n s) = setTimer c m s := by
  simp [setTimer, State.setCh, State.ch]

/-- A channel tick changes no channel's registers (rules R150, R151). -/
@[simp] theorem channelTick_ch (c d : Chan) (s : State) : (channelTick c s).ch d = s.ch d := by
  unfold channelTick
  split
  · rfl
  · simp

/-- A channel tick and a write of the channel's timer do not interfere. -/
theorem channelTick_setTimer (c : Chan) (n : Nat) (s : State) :
    channelTick c (setTimer c n s) = setTimer c n (channelTick c s) := by
  unfold channelTick
  split
  · next h => subst h; simp [setTimer, State.setCh, State.ch]
  · simp [setTimer, State.setCh, State.setPhase, State.ch, State.phase]
    split <;> rfl

/-- Several channel ticks and a write of the channel's timer do not interfere. -/
theorem channelTick_iterate_setTimer (c : Chan) (k n : Nat) (s : State) :
    (channelTick c)^[k] (setTimer c n s) = setTimer c n ((channelTick c)^[k] s) := by
  induction k generalizing s with
  | zero => rfl
  | succ k ih => rw [Function.iterate_succ_apply, channelTick_setTimer, ih, Function.iterate_succ_apply]

@[simp] theorem period_setTimer (s : State) (c d : Chan) (n : Nat) : period (setTimer c n s) d = period s d := by
  have h : freqReg ((setTimer c n s).ch d) = freqReg (s.ch d) := by
    by_cases hc : c = d
    · subst hc; simp [freqReg]
    · rw [ch_setTimer_ne s hc]
  simp only [period, h, setTimer_cfg, setTimer_sweepFrequency]

@[simp] theorem period_channelTick (s : State) (c d : Chan) : period (channelTick c s) d = period s d := by
  simp [period]

/-- A channel tick with its reload: one tick, and the timer at the current period (rules R142, R146). -/
theorem tickAndReload_eq (c : Chan) (s : State) :
    tickAndReload c s = setTimer c (period s c) (channelTick c s) := by
  simp [tickAndReload]

/-- Whatever the ticks inside a window do, it is `k` channel ticks and a write of the timer. -/
theorem ticksInside_shape (fuel : Nat) (c : Chan) (rem : Nat) (s : State) :
    ∃ k n, (ticksInside fuel c rem s).2 = setTimer c n ((channelTick c)^[k] s) := by
  induction fuel generalizing rem s with
  | zero => exact ⟨0, (s.ch c).frequencyTimer, (setTimer_self s c).symm⟩
  | succ fuel ih =>
    unfold ticksInside
    dsimp only
    split
    · obtain ⟨k, n, h⟩ := ih (rem - (s.ch c).frequencyTimer) (tickAndReload c s)
      refine ⟨k + 1, n, ?_⟩
      rw [h, tickAndReload_eq, channelTick_iterate_setTimer, setTimer_setTimer, ← Function.iterate_succ_apply]
    · exact ⟨0, (s.ch c).frequencyTimer, (setTimer_self s c).symm⟩

/-- A running timer of `T` cycles and a period `P`: of the ticks at `T`, `T + P`, `T + 2 P`, … exactly the `k` ones
below `rem` are performed inside the window; the timer is then that of the next tick (rules R142, R145). -/
theorem ticksInside_spec (fuel : Nat) (c : Chan) (rem : Nat) (s : State) (hp : 1 ≤ period s c)
    (ht : 1 ≤ (s.ch c).frequencyTimer) (hf : rem ≤ fuel) :
    ∃ k n r, ticksInside fuel c rem s = (r, setTimer c n ((channelTick c)^[k] s)) ∧
      r ≤ n ∧ n + (rem - r) = (s.ch c).frequencyTimer + k * period s c ∧
      ((k = 0 ∧ n = (s.ch c).frequencyTimer ∧ r = rem) ∨ (1 ≤ k ∧ n = period s c ∧ 1 ≤ r ∧ r < rem)) := by
  induction fuel generalizing rem s with
  | zero =>
    refine ⟨0, (s.ch c).frequencyTimer, rem, ?_, by omega, by omega, .inl ⟨rfl, rfl, rfl⟩⟩
    simp [ticksInside, setTimer_self]
  | succ fuel ih =>
    unfold ticksInside
    dsimp only
    split
    · have hp' : period (tickAndReload c s) c = period s c := by simp [tickAndReload_eq]
      have ht' : ((tickAndReload c s).ch c).frequencyTimer = period s c := by simp [tickAndReload_eq]
      obtain ⟨k, n, r, he, hn, hs, hc⟩ := ih (rem - (s.ch c).frequencyTimer) (tickAndReload c s)
        (by rw [hp']; exact hp) (by rw [ht']; exact hp) (by omega)
      rw [hp', ht'] at hs hc
      refine ⟨k + 1, n, r, ?_, hn, ?_, .inr ⟨by omega, by omega, by omega, by omega⟩⟩
      · rw [he, tickAndReload_eq, channelTick_iterate_setTimer, setTimer_setTimer, ← Function.iterate_succ_apply]
      · rw [Nat.succ_mul]; omega
    · refine ⟨0, (s.ch c).frequencyTimer, rem, ?_, by omega, by omega, .inl ⟨rfl, rfl, rfl⟩⟩
      simp [setTimer_self]

/-- A channel that fails the gate contributes nothing and does nothing (rule R143). -/
theorem stepChannel_closed {m : Mix} {c : Chan} (h : gateOpen m.st c = false) : stepChannel m c = m := by
  simp [stepChannel, h]

/-- Whatever a channel's part of a sample does to the state, it is `k` channel ticks and a write of the timer. -/
theorem stepChannel_shape (m : Mix) (c : Chan) :
    ∃ k n, (stepChannel m c).st = setTimer c n ((channelTick c)^[k] m.st) := by
  unfold stepChannel
  split
  · obtain ⟨k, n, h⟩ := ticksInside_shape (m.st.cfg.cps + 1) c m.st.cfg.cps m.st
    dsimp only
    rw [h]
    unfold windowEnd
    dsimp only
    split
    · refine ⟨k + 1, period m.st c, ?_⟩
      have hk : ∀ j, period ((channelTick c)^[j] m.st) c = period m.st c := by
        intro j
        induction j with
        | zero => rfl
        | succ j ih => rw [Function.iterate_succ_apply', period_channelTick, ih]
      rw [tickAndReload_eq, setTimer_setTimer, channelTick_setTimer, setTimer_setTimer, period_setTimer, hk,
        Function.iterate_succ_apply']
    · exact ⟨k, _, setTimer_setTimer _ c _ n⟩
  · exact ⟨0, _, (setTimer_self m.st c).symm⟩

/-- A channel tick and its timer change no level's inputs but the phase and the LFSR (rules R152, R153). -/
@[simp] theorem level_setTimer (s : State) (c d : Chan) (n : Nat) : level (setTimer c n s) d = level s d := rfl

@[simp] theorem gainL_setTimer (s : State) (c d : Chan) (n : Nat) : gainL (setTimer c n s) d = gainL s d := by
  by_cases h : c = d
  · subst h; simp [gainL]
  · simp [gainL, ch_setTimer_ne s h]

@[simp] theorem gainR_setTimer (s : State) (c d : Chan) (n : Nat) : gainR (setTimer c n s) d = gainR s d := by
  by_cases h : c = d
  · subst h; simp [gainR]
  · simp [gainR, ch_setTimer_ne s h]

/-- Several channel ticks of one channel leave every channel's registers alone. -/
@[simp] theorem channelTick_iterate_ch (c d : Chan) (k : Nat) (s : State) :
    ((channelTick c)^[k] s).ch d = s.ch d := by
  induction k with
  | zero => rfl
  | succ k ih => rw [Function.iterate_succ_apply', channelTick_ch, ih]

@[simp] theorem period_channelTick_iterate (c d : Chan) (k : Nat) (s : State) :
    period ((channelTick c)^[k] s) d = period s d := by
  induction k with
  | zero => rfl
  | succ k ih => rw [Function.iterate_succ_apply', period_channelTick, ih]

/-- A channel that passes the gate with a running timer of `T` cycles: exactly its `j` ticks at `T`, `T + P`, … inside
the window come before the mix, one exactly at the window's end after it; the timer runs on to the next tick, and the
level read between is the contribution (rules R142, R145, R157). -/
theorem stepChannel_open {m : Mix} {c : Chan} (hg : gateOpen m.st c = true) (hp : 1 ≤ period m.st c)
    (ht : 1 ≤ (m.st.ch c).frequencyTimer) :
    ∃ j k n, stepChannel m c =
        { accL := m.accL + level ((channelTick c)^[j] m.st) c * gainL m.st c
          accR := m.accR + level ((channelTick c)^[j] m.st) c * gainR m.st c
          st := setTimer c n ((channelTick c)^[k] m.st) } ∧
      m.st.cfg.cps ≤ (m.st.ch c).frequencyTimer + j * period m.st c ∧
      (j = 0 ∨ (m.st.ch c).frequencyTimer + j * period m.st c < m.st.cfg.cps + period m.st c) ∧
      ((m.st.cfg.cps < (m.st.ch c).frequencyTimer + j * period m.st c ∧ k = j ∧
          n = (m.st.ch c).frequencyTimer + j * period m.st c - m.st.cfg.cps) ∨
        (m.st.cfg.cps = (m.st.ch c).frequencyTimer + j * period m.st c ∧ k = j + 1 ∧ n = period m.st c)) := by
  obtain ⟨j, n, r, he, hn, hs, hc⟩ := ticksInside_spec (m.st.cfg.cps + 1) c m.st.cfg.cps m.st hp ht (by omega)
  have hL : gainL ((channelTick c)^[j] m.st) c = gainL m.st c := by simp [gainL]
  have hR : gainR ((channelTick c)^[j] m.st) c = gainR m.st c := by simp [gainR]
  unfold stepChannel
  rw [if_pos hg]
  dsimp only
  rw [he]
  dsimp only
  rw [level_setTimer, gainL_setTimer, gainR_setTimer, hL, hR]
  unfold windowEnd
  dsimp only
  rw [ch_setTimer_same]
  dsimp only
  by_cases h0 : n - r = 0
  · rw [if_pos h0]
    refine ⟨j, j + 1, period m.st c, ?_, by omega, by omega, .inr ⟨by omega, rfl, rfl⟩⟩
    rw [tickAndReload_eq, setTimer_setTimer, channelTick_setTimer, setTimer_setTimer, period_setTimer,
      period_channelTick_iterate, Function.iterate_succ_apply']
  · rw [if_neg h0]
    exact ⟨j, j, n - r, by rw [setTimer_setTimer], by omega, by omega, .inl ⟨by omega, rfl, by omega⟩⟩

/-- A channel tick of one channel leaves the other channels' phases alone (rule R150). -/
theorem channelTick_phase_ne {c d : Chan} (h : c ≠ d) (s : State) : (channelTick c s).phase d = s.phase d := by
  unfold channelTick
  split
  · rfl
  · exact phase_setPhase_ne s h _

/-- `k` channel ticks of a wave channel move its phase by `k` (rule R150). -/
theorem channelTick_iterate_phase {c : Chan} (h : c ≠ chNoise) (k : Nat) (s : State) :
    ((channelTick c)^[k] s).phase c = s.phase c + BitVec.ofNat 5 k := by
  induction k with
  | zero => simp
  | succ k ih =>
    rw [Function.iterate_succ_apply']
    unfold channelTick at ih ⊢
    simp only [if_neg h] at ih ⊢
    rw [phase_setPhase_same _ _ _ h, ih]
    apply BitVec.eq_of_toNat_eq
    have h1 : (1 : BitVec 5).toNat = 1 := rfl
    simp only [BitVec.toNat_add, BitVec.toNat_ofNat, h1]
    omega

/-- A channel's part of a sample changes no register of a channel, and of the timers only its own (rules R142,
R161). -/
theorem stepChannel_ch (m : Mix) (c d : Chan) :
    ∃ n, (stepChannel m c).st.ch d = { m.st.ch d with frequencyTimer := n } ∧
      (d ≠ c → n = (m.st.ch d).frequencyTimer) := by
  obtain ⟨k, n, h⟩ := stepChannel_shape m c
  rw [h]
  by_cases hc : c = d
  · subst hc
    exact ⟨n, by simp, fun e => absurd rfl e⟩
  · exact ⟨(m.st.ch d).frequencyTimer, by simp [hc], fun _ => rfl⟩

/-- The other channels' phases stay, and the LFSR unless the channel is the noise channel. -/
theorem stepChannel_phase_ne {m : Mix} {c d : Chan} (h : c ≠ d) : (stepChannel m c).st.phase d = m.st.phase d := by
  obtain ⟨k, n, e⟩ := stepChannel_shape m c
  rw [e, phase_setTimer]
  clear e
  induction k with
  | zero => rfl
  | succ k ih => rw [Function.iterate_succ_apply', channelTick_phase_ne h, ih]

/-- Only the noise channel's part of a sample shifts the LFSR (rule R151). -/
theorem stepChannel_noise_ne {m : Mix} {c : Chan} (h : c ≠ chNoise) :
    (stepChannel m c).st.noiseShift = m.st.noiseShift := by
  obtain ⟨k, n, e⟩ := stepChannel_shape m c
  rw [e, setTimer_noiseShift]
  clear e
  induction k with
  | zero => rfl
  | succ k ih =>
    rw [Function.iterate_succ_apply']
    unfold channelTick at ih ⊢
    simp only [if_neg h] at ih ⊢
    simpa using ih

/-- The six parts of a sample, in index order (rule R142). -/
theorem mixChannels_eq (s : State) :
    mixChannels s =
      stepChannel (stepChannel (stepChannel (stepChannel (stepChannel (stepChannel ⟨0, 0, s⟩ 0) 1) 2) 3) 4) 5 := rfl

/-- Mixing changes no register of a channel (rule R161). -/
theorem mixChannels_ch (s : State) (d : Chan) :
    ∃ n, (mixChannels s).st.ch d = { s.ch d with frequencyTimer := n } := by
  have step : ∀ (m : Mix) (c : Chan), (∃ n, m.st.ch d = { s.ch d with frequencyTimer := n }) →
      ∃ n, (stepChannel m c).st.ch d = { s.ch d with frequencyTimer := n } := by
    rintro m c ⟨n, h⟩
    obtain ⟨k, e, -⟩ := stepChannel_ch m c d
    exact ⟨k, by rw [e, h]⟩
  rw [mixChannels_eq]
  exact step _ 5 (step _ 4 (step _ 3 (step _ 2 (step _ 1 (step _ 0 ⟨_, rfl⟩)))))

/-- What does not read the timers reads the same after mixing. -/
theorem mixChannels_enabled (s : State) (c : Chan) : enabled (mixChannels s).st c = enabled s c := by
  obtain ⟨n, h⟩ := mixChannels_ch s c
  simp [enabled, h]

/-- The gain is at most 29 (rule R155). -/
theorem gain_le : ∀ e p : BitVec 4, gain e p ≤ 29 := by decide

/-- A level is at most 63 when the noise level is (rules R152, R153). -/
theorem level_le {s : State} (h : s.cfg.noiseMax ≤ 63) (c : Chan) : level s c ≤ 63 := by
  unfold level
  split
  · split <;> omega
  · dsimp only
    split
    · exact waveLevel_le _
    · omega

/-- A channel adds at most 29 × 63 to either sum (rule R157). -/
theorem stepChannel_acc_le {m : Mix} (h : m.st.cfg.noiseMax ≤ 63) (c : Chan) :
    (stepChannel m c).accL ≤ m.accL + 1827 ∧ (stepChannel m c).accR ≤ m.accR + 1827 := by
  unfold stepChannel
  split
  · have hl : level (ticksInside (m.st.cfg.cps + 1) c m.st.cfg.cps m.st).2 c ≤ 63 :=
      level_le (by rw [ticksInside_cfg]; exact h) c
    have hL := Nat.mul_le_mul hl (gain_le
      (((ticksInside (m.st.cfg.cps + 1) c m.st.cfg.cps m.st).2).ch c).envelopeValue
      (panL (((ticksInside (m.st.cfg.cps + 1) c m.st.cfg.cps m.st).2).ch c).lrv))
    have hR := Nat.mul_le_mul hl (gain_le
      (((ticksInside (m.st.cfg.cps + 1) c m.st.cfg.cps m.st).2).ch c).envelopeValue
      (panR (((ticksInside (m.st.cfg.cps + 1) c m.st.cfg.cps m.st).2).ch c).lrv))
    exact ⟨Nat.add_le_add_left hL _, Nat.add_le_add_left hR _⟩
  · exact ⟨by omega, by omega⟩

/-- `j + k` samples are `j` samples and then `k` (rule R140). -/
theorem produceSamples_add (j k : Nat) (s : State) :
    produceSamples (j + k) s = produceSamples k (produceSamples j s) := by
  induction j generalizing s with
  | zero => rw [Nat.zero_add]; rfl
  | succ j ih => rw [Nat.succ_add]; exact ih (produceSample s)

/-- A property of states that every sample keeps is kept by any number of them. -/
theorem produceSamples_keeps {P : State → Prop} (h : ∀ s, P s → P (produceSample s)) (n : Nat) {s : State}
    (hs : P s) : P (produceSamples n s) := by
  induction n generalizing s with
  | zero => exact hs
  | succ n ih => exact ih (h s hs)

/-- What ADVANCE can do: nothing, or `n` samples with the time base moved on by `n` × `CPS`, no further than the
stamp (rules R140, R141). -/
theorem advance_cases (toCycle : Cycle) (s : State) :
    advance toCycle s = s ∨
    ∃ n, 1 ≤ n ∧ n = (toCycle - s.lastSynthesizedCycle) / s.cfg.cps ∧
      s.lastSynthesizedCycle + n * s.cfg.cps ≤ toCycle ∧
      advance toCycle s =
        produceSamples n { s with lastSynthesizedCycle := s.lastSynthesizedCycle + n * s.cfg.cps } := by
  unfold advance
  dsimp only
  split
  · exact .inl rfl
  · next hn =>
    right
    unfold samplesDue at hn ⊢
    by_cases hlt : toCycle < s.lastSynthesizedCycle
    · exact absurd (if_pos hlt) hn
    · rw [if_neg hlt] at hn ⊢
      have hle : s.lastSynthesizedCycle ≤ toCycle := Nat.le_of_not_lt hlt
      exact ⟨_, Nat.pos_of_ne_zero hn, rfl,
        Nat.add_le_of_le_sub' hle (Nat.div_mul_le_self (toCycle - s.lastSynthesizedCycle) s.cfg.cps), rfl⟩

/-- ADVANCE moves the time base no further than its stamp (rules R44, R140). -/
theorem advance_clock_le (toCycle : Cycle) (s : State) :
    (advance toCycle s).lastSynthesizedCycle ≤ max toCycle s.lastSynthesizedCycle := by
  rcases advance_cases toCycle s with e | ⟨n, -, -, h, e⟩
  · rw [e]; exact Nat.le_max_right _ _
  · rw [e, produceSamples_lastSynthesizedCycle]
    exact Nat.le_trans h (Nat.le_max_left _ _)

/-- A property that a sample keeps and that does not read the time base is kept by ADVANCE. -/
theorem advance_keeps {P : State → Prop} (hb : ∀ s b, P s → P { s with lastSynthesizedCycle := b })
    (h : ∀ s, P s → P (produceSample s)) (toCycle : Cycle) {s : State} (hs : P s) : P (advance toCycle s) := by
  rcases advance_cases toCycle s with e | ⟨n, -, -, -, e⟩
  · rw [e]; exact hs
  · rw [e]; exact produceSamples_keeps h n (hb s _ hs)

/-- The same for a WRITE's catch-up (rule R102). -/
theorem catchUp_keeps {P : State → Prop} (hb : ∀ s b, P s → P { s with lastSynthesizedCycle := b })
    (h : ∀ s, P s → P (produceSample s)) (off : Offset) (now : Cycle) {s : State} (hs : P s) :
    P (catchUp off now s) := by
  unfold catchUp
  split
  · exact advance_keeps hb h now hs
  · exact hs

/-- A WRITE below the threshold catches up by an ADVANCE to its stamp (rule R102). -/
theorem catchUp_below {s : State} {off : Offset} (h : off.toNat < s.cfg.catchupThreshold) (now : Cycle) :
    catchUp off now s = advance now s := if_pos h

/-- A WRITE at or above the threshold does not catch up (rule R102). -/
theorem catchUp_above {s : State} {off : Offset} (h : s.cfg.catchupThreshold ≤ off.toNat) (now : Cycle) :
    catchUp off now s = s := if_neg (Nat.not_lt.mpr h)

/-- With the default threshold every catch-up is an ADVANCE (rule R102). -/
theorem catchUp_eq {s : State} (h : s.cfg.catchupThreshold = 0x800) (off : Offset) (now : Cycle) :
    catchUp off now s = advance now s :=
  catchUp_below (by rw [h]; exact off.isLt) now

end Sys2Proof.Machine
end

