-- ==== Sys2Proof/Laws/Instructions.lean ====
section
/-! SUPPORT. What an instruction and a step can do, once: the port operations by kind (rules R100 to R124, R140,
R222, R230 to R232, R260). -/

namespace Sys2Proof.Machine

/-- What a WRITE does after its catch-up: it stores in a table, or in a register, or nothing (rules R104 to R123). -/
inductive WriteEffect (u t : State) : Prop where
  | none (h : t = u)
  | table (k : Fin 6) (i : Entry) (v : Byte) (h : t = writeTable (tableOffset k.val i) v u)
  | int (c : Chan) (v : Byte) (h : t = writeInt c v u)
  | lrv (c : Chan) (v : Byte) (h : t = writeLrv c v u)
  | fql (c : Chan) (v : Byte) (h : t = writeFql c v u)
  | fqh (c : Chan) (v : Byte) (h : t = writeFqh c v u)
  | ev0 (c : Chan) (v : Byte) (h : t = writeEv0 c v u)
  | ev1 (c : Chan) (v : Byte) (h : t = writeEv1 c v u)
  | ram (c : WaveChan) (v : Byte) (h : t = u.setRam c v)
  | swp (v : Byte) (h : t = { u with swp := v })
  | stop (h : t = stopAll u)

/-- What an instruction with stamp `now` does: nothing, a catch-up and the effect of a WRITE, or one of the other port
operations. -/
inductive InstrEffect (now : Cycle) (s t : State) : Prop where
  | idle (h : t = s)
  | write (off : Offset) (h : WriteEffect (catchUp off now s) t)
  | advance (h : t = advance now s)
  | reset (h : t = resetAll s)
  | muted (b : Bool) (h : t = { s with muted := b })
  | paused (b : Bool) (h : t = { s with paused := b })
  | consume (h : t = consume s)

/-- Every instruction that answers a next state does one of these. -/
theorem exec_cases {i : Instr} {s t : State} (h : exec i s = .next t) : InstrEffect (encode i).stamp s t := by
  cases i
  case wave0 => cases h; exact .write _ (.table 0 _ _ rfl)
  case wave1 => cases h; exact .write _ (.table 1 _ _ rfl)
  case wave2 => cases h; exact .write _ (.table 2 _ _ rfl)
  case wave3 => cases h; exact .write _ (.table 3 _ _ rfl)
  case wave4 => cases h; exact .write _ (.table 4 _ _ rfl)
  case modtbl => cases h; exact .write _ (.table 5 _ _ rfl)
  case int0 => cases h; exact .write _ (.int 0 _ rfl)
  case int1 => cases h; exact .write _ (.int 1 _ rfl)
  case int2 => cases h; exact .write _ (.int 2 _ rfl)
  case int3 => cases h; exact .write _ (.int 3 _ rfl)
  case int4 => cases h; exact .write _ (.int 4 _ rfl)
  case int5 => cases h; exact .write _ (.int 5 _ rfl)
  case lrv0 => cases h; exact .write _ (.lrv 0 _ rfl)
  case lrv1 => cases h; exact .write _ (.lrv 1 _ rfl)
  case lrv2 => cases h; exact .write _ (.lrv 2 _ rfl)
  case lrv3 => cases h; exact .write _ (.lrv 3 _ rfl)
  case lrv4 => cases h; exact .write _ (.lrv 4 _ rfl)
  case lrv5 => cases h; exact .write _ (.lrv 5 _ rfl)
  case fql0 => cases h; exact .write _ (.fql 0 _ rfl)
  case fql1 => cases h; exact .write _ (.fql 1 _ rfl)
  case fql2 => cases h; exact .write _ (.fql 2 _ rfl)
  case fql3 => cases h; exact .write _ (.fql 3 _ rfl)
  case fql4 => cases h; exact .write _ (.fql 4 _ rfl)
  case fql5 => cases h; exact .write _ (.fql 5 _ rfl)
  case fqh0 => cases h; exact .write _ (.fqh 0 _ rfl)
  case fqh1 => cases h; exact .write _ (.fqh 1 _ rfl)
  case fqh2 => cases h; exact .write _ (.fqh 2 _ rfl)
  case fqh3 => cases h; exact .write _ (.fqh 3 _ rfl)
  case fqh4 => cases h; exact .write _ (.fqh 4 _ rfl)
  case fqh5 => cases h; exact .write _ (.fqh 5 _ rfl)
  case ev00 => cases h; exact .write _ (.ev0 0 _ rfl)
  case ev01 => cases h; exact .write _ (.ev0 1 _ rfl)
  case ev02 => cases h; exact .write _ (.ev0 2 _ rfl)
  case ev03 => cases h; exact .write _ (.ev0 3 _ rfl)
  case ev04 => cases h; exact .write _ (.ev0 4 _ rfl)
  case ev05 => cases h; exact .write _ (.ev0 5 _ rfl)
  case ev10 => cases h; exact .write _ (.ev1 0 _ rfl)
  case ev11 => cases h; exact .write _ (.ev1 1 _ rfl)
  case ev12 => cases h; exact .write _ (.ev1 2 _ rfl)
  case ev13 => cases h; exact .write _ (.ev1 3 _ rfl)
  case ev14 => cases h; exact .write _ (.ev1 4 _ rfl)
  case ev15 => cases h; exact .write _ (.ev1 5 _ rfl)
  case ram0 => cases h; exact .write _ (.ram 0 _ rfl)
  case ram1 => cases h; exact .write _ (.ram 1 _ rfl)
  case ram2 => cases h; exact .write _ (.ram 2 _ rfl)
  case ram3 => cases h; exact .write _ (.ram 3 _ rfl)
  case ram4 => cases h; exact .write _ (.ram 4 _ rfl)
  case swp => cases h; exact .write _ (.swp _ rfl)
  case sstop now v =>
    cases h
    cases hv : sstopStop v with
    | true => exact .write _ (.stop rfl)
    | false => exact .write _ (.none rfl)
  case rsvdOdd => cases h; exact .idle rfl
  case rsvdA1 => cases h; exact .idle rfl
  case advance => cases h; exact .advance rfl
  case reset => cases h; exact .reset rfl
  case setMuted => cases h; exact .muted _ rfl
  case pause => cases h; exact .paused true rfl
  case resume => cases h; exact .paused false rfl
  case consume => cases h; exact .consume rfl
  all_goals cases h; exact .write _ (.none rfl)

/-- A step that answers a next state was taken with valid parameters; it did nothing, with no operation pending, or
performed the first pending operation, whose stamp has at most `CYCLE_BITS` bits (assumptions 1, 2, 4 and 6). -/
theorem step_cases {s t : State} (h : step s = .next t) :
    s.cfg.Valid ∧ ((s.pending = [] ∧ t = s) ∨
      ∃ op rest, s.pending = op :: rest ∧ op.stamp < 2 ^ s.cfg.cycleBits ∧
        InstrEffect op.stamp { s with pending := rest } t) := by
  unfold step at h
  split at h
  · next hv =>
    refine ⟨hv, ?_⟩
    split at h
    · next hp => cases h; exact .inl ⟨hp, rfl⟩
    · next op rest hp =>
      split at h
      · next hs =>
        have e := exec_cases h
        rw [decode_stamp, PortOp.inWindow_stamp] at e
        exact .inr ⟨op, rest, hp, hs, e⟩
      · cases h
  · cases h

/-- A table write changes the tables alone, and not even them when the lock holds (rules R104, R105). -/
theorem writeTable_cases (off : Offset) (v : Byte) (s : State) :
    (tableLocked s off = true ∧ writeTable off v s = s) ∨
    (tableLocked s off = false ∧ writeTable off v s = { s with mem := s.mem.write off.toNat v }) := by
  unfold writeTable
  cases h : tableLocked s off with
  | true => exact .inl ⟨rfl, rfl⟩
  | false => exact .inr ⟨rfl, rfl⟩

/-- The offset of a table entry (rule R82). -/
theorem tableOffset_toNat (k : Fin 6) (i : Entry) : (tableOffset k.val i).toNat = 0x80 * k.val + 4 * i.toNat := by
  have hk := k.isLt
  have hi := i.isLt
  unfold tableOffset
  rw [BitVec.toNat_ofNat]
  omega

/-- Different entries have different offsets (rule R82). -/
theorem tableOffset_inj {k k' : Fin 6} {i i' : Entry}
    (h : (tableOffset k.val i).toNat = (tableOffset k'.val i').toNat) : k = k' ∧ i = i' := by
  rw [tableOffset_toNat, tableOffset_toNat] at h
  have hi := i.isLt
  have hi' := i'.isLt
  exact ⟨Fin.ext (by omega), BitVec.eq_of_toNat_eq (by omega)⟩

/-- The lock at an offset, by the enable bits (rules R104, R105). -/
theorem tableLocked_iff (s : State) (off : Offset) :
    tableLocked s off = true ↔
      off.toNat < s.cfg.waveRegionEnd ∧
        (enabled s chNoise = true ∨ (off.toNat < s.cfg.waveLockSplit ∧ ∃ c : Chan, c.val ≤ 4 ∧ enabled s c = true)) := by
  have hw : anyWaveEnabled s = true ↔ ∃ c : Chan, c.val ≤ 4 ∧ enabled s c = true := by
    simp [anyWaveEnabled, Fin.exists_fin_succ]
    tauto
  simp [tableLocked, hw]

/-- A table write keeps the canonical form. -/
theorem writeTable_wf {s : State} (h : Memory.wf s.mem = true) (off : Offset) (v : Byte) :
    Memory.wf (writeTable off v s).mem = true := by
  rcases writeTable_cases off v s with ⟨-, e⟩ | ⟨-, e⟩
  · rw [e]; exact h
  · rw [e]; exact Memory.write_wf h _ _

/-- The extra resets of an INT write change no channel (rules R121, R122). -/
@[simp] theorem restartExtra_ch (c d : Chan) (s : State) : (restartExtra c s).ch d = s.ch d := by
  unfold restartExtra restartSweep
  split
  · rfl
  · split <;> rfl

/-- The extra resets of an INT write change no period (rules R121, R122). -/
@[simp] theorem restartExtra_period (c d : Chan) (s : State) : period (restartExtra c s) d = period s d := by
  unfold restartExtra restartSweep
  split
  · rfl
  · split <;> rfl

/-- A period depends on the parameters, FQL, FQH and the sweep frequency alone (rule R146). -/
theorem period_congr {s t : State} {c : Chan} (hc : t.cfg = s.cfg) (hf : freqReg (t.ch c) = freqReg (s.ch c))
    (hs : t.sweepFrequency = s.sweepFrequency) : period t c = period s c := by
  unfold period
  rw [hc, hf, hs]

/-- What an INT write leaves in its channel (rules R110, R120). -/
theorem writeInt_ch (c : Chan) (v : Byte) (s : State) :
    (writeInt c v s).ch c =
      { s.ch c with int := v, shutoffTimer := intInterval v, frequencyTimer := period s c } := by
  unfold writeInt
  dsimp only
  rw [ch_setTimer_same, ch_setPhase, ch_setCh_same, restartExtra_ch, ch_setCh_same]
  have h1 : period (State.setPhase (State.setCh (restartExtra c (s.setCh c { s.ch c with int := v })) c
      { ({ s.ch c with int := v } : Channel) with shutoffTimer := intInterval v }) c 0) c = period s c := by
    refine period_congr ?_ ?_ ?_
    · unfold restartExtra restartSweep; simp; split <;> (try split) <;> rfl
    · simp [freqReg]
    · unfold restartExtra restartSweep; simp; split <;> (try split) <;> rfl
  rw [h1]

/-- An INT write leaves the other channels alone (rule R124). -/
theorem writeInt_ch_ne {c d : Chan} (h : c ≠ d) (v : Byte) (s : State) : (writeInt c v s).ch d = s.ch d := by
  simp [writeInt, h]

/-- The stop action disables every channel and keeps the other bits of INT (rule R123). -/
@[simp] theorem stopAll_ch (s : State) (c : Chan) : (stopAll s).ch c = clearEnable (s.ch c) :=
  ch_map s clearEnable c

/-- A cleared channel after RESET (rule R260). -/
@[simp] theorem resetAll_ch (s : State) (c : Chan) : (resetAll s).ch c = Channel.reset := by
  simp [resetAll, State.ch]

/-- RESET with the default parameters gives the power-on state, but for the two control flags, the operations
still pending and the last answer (rules R58, R263). -/
theorem resetAll_eq (s : State) :
    resetAll s =
      { State.powerOn s.cfg with
        muted := s.muted, paused := s.paused, pending := s.pending, returned := s.returned } := rfl

end Sys2Proof.Machine
end

