-- ==== Sys2Proof/Laws/PerInstr.lean ====
section
/-! SUPPORT. The per-instruction family `EncodesItsRow`: the encoding of a well-formed instruction has an offset
that its row of the opcode table selects (rules R82 to R88). -/

namespace Sys2Proof.Laws

/-- A well-formed instruction with a row of the table is encoded at an offset that the row selects (rule R88). -/
def EncodesItsRow.Statement (i : Instr) : Prop :=
  i.wellFormed = true → ∀ r, i.row = some r →
    ∃ t : WriteTransaction, encode i = .write t ∧ r.selects t.offset = true

/-- An encoded transaction at an offset that a row selects. -/
theorem selects_encodeWrite {r r' : Row} {now : Cycle} {off : Offset} {v : Byte} (hr : some r' = some r)
    (h : r'.selects off = true) :
    ∃ t : WriteTransaction, encodeWrite now off v = .write t ∧ r.selects t.offset = true := by
  cases hr
  refine ⟨_, rfl, ?_⟩
  rw [WriteTransaction.offset, extract_encoded_offset]
  exact h

/-- Every entry of a table has an offset that the table's row selects (rule R82). -/
theorem selects_tableOffset : ∀ (table : Fin 6) (i : Entry),
    Row.selects ⟨0x783, BitVec.ofNat 11 (0x80 * table.val)⟩ (tableOffset table.val i) = true := by
  decide

theorem EncodesItsRow.wave0 (now : Cycle) (i : Entry) (v : Byte) :
    EncodesItsRow.Statement (.wave0 now i v) := 
  fun _ _ hr => selects_encodeWrite hr (selects_tableOffset 0 i)

theorem EncodesItsRow.wave1 (now : Cycle) (i : Entry) (v : Byte) :
    EncodesItsRow.Statement (.wave1 now i v) := 
  fun _ _ hr => selects_encodeWrite hr (selects_tableOffset 1 i)

theorem EncodesItsRow.wave2 (now : Cycle) (i : Entry) (v : Byte) :
    EncodesItsRow.Statement (.wave2 now i v) := 
  fun _ _ hr => selects_encodeWrite hr (selects_tableOffset 2 i)

theorem EncodesItsRow.wave3 (now : Cycle) (i : Entry) (v : Byte) :
    EncodesItsRow.Statement (.wave3 now i v) := 
  fun _ _ hr => selects_encodeWrite hr (selects_tableOffset 3 i)

theorem EncodesItsRow.wave4 (now : Cycle) (i : Entry) (v : Byte) :
    EncodesItsRow.Statement (.wave4 now i v) := 
  fun _ _ hr => selects_encodeWrite hr (selects_tableOffset 4 i)

theorem EncodesItsRow.modtbl (now : Cycle) (i : Entry) (v : Byte) :
    EncodesItsRow.Statement (.modtbl now i v) := 
  fun _ _ hr => selects_encodeWrite hr (selects_tableOffset 5 i)

theorem EncodesItsRow.int0 (now : Cycle) (v : Byte) :
    EncodesItsRow.Statement (.int0 now v) := 
  fun _ _ hr => selects_encodeWrite hr rfl

theorem EncodesItsRow.int1 (now : Cycle) (v : Byte) :
    EncodesItsRow.Statement (.int1 now v) := 
  fun _ _ hr => selects_encodeWrite hr rfl

theorem EncodesItsRow.int2 (now : Cycle) (v : Byte) :
    EncodesItsRow.Statement (.int2 now v) := 
  fun _ _ hr => selects_encodeWrite hr rfl

theorem EncodesItsRow.int3 (now : Cycle) (v : Byte) :
    EncodesItsRow.Statement (.int3 now v) := 
  fun _ _ hr => selects_encodeWrite hr rfl

theorem EncodesItsRow.int4 (now : Cycle) (v : Byte) :
    EncodesItsRow.Statement (.int4 now v) := 
  fun _ _ hr => selects_encodeWrite hr rfl

theorem EncodesItsRow.int5 (now : Cycle) (v : Byte) :
    EncodesItsRow.Statement (.int5 now v) := 
  fun _ _ hr => selects_encodeWrite hr rfl

theorem EncodesItsRow.lrv0 (now : Cycle) (v : Byte) :
    EncodesItsRow.Statement (.lrv0 now v) := 
  fun _ _ hr => selects_encodeWrite hr rfl

theorem EncodesItsRow.lrv1 (now : Cycle) (v : Byte) :
    EncodesItsRow.Statement (.lrv1 now v) := 
  fun _ _ hr => selects_encodeWrite hr rfl

theorem EncodesItsRow.lrv2 (now : Cycle) (v : Byte) :
    EncodesItsRow.Statement (.lrv2 now v) := 
  fun _ _ hr => selects_encodeWrite hr rfl

theorem EncodesItsRow.lrv3 (now : Cycle) (v : Byte) :
    EncodesItsRow.Statement (.lrv3 now v) := 
  fun _ _ hr => selects_encodeWrite hr rfl

theorem EncodesItsRow.lrv4 (now : Cycle) (v : Byte) :
    EncodesItsRow.Statement (.lrv4 now v) := 
  fun _ _ hr => selects_encodeWrite hr rfl

theorem EncodesItsRow.lrv5 (now : Cycle) (v : Byte) :
    EncodesItsRow.Statement (.lrv5 now v) := 
  fun _ _ hr => selects_encodeWrite hr rfl

theorem EncodesItsRow.fql0 (now : Cycle) (v : Byte) :
    EncodesItsRow.Statement (.fql0 now v) := 
  fun _ _ hr => selects_encodeWrite hr rfl

theorem EncodesItsRow.fql1 (now : Cycle) (v : Byte) :
    EncodesItsRow.Statement (.fql1 now v) := 
  fun _ _ hr => selects_encodeWrite hr rfl

theorem EncodesItsRow.fql2 (now : Cycle) (v : Byte) :
    EncodesItsRow.Statement (.fql2 now v) := 
  fun _ _ hr => selects_encodeWrite hr rfl

theorem EncodesItsRow.fql3 (now : Cycle) (v : Byte) :
    EncodesItsRow.Statement (.fql3 now v) := 
  fun _ _ hr => selects_encodeWrite hr rfl

theorem EncodesItsRow.fql4 (now : Cycle) (v : Byte) :
    EncodesItsRow.Statement (.fql4 now v) := 
  fun _ _ hr => selects_encodeWrite hr rfl

theorem EncodesItsRow.fql5 (now : Cycle) (v : Byte) :
    EncodesItsRow.Statement (.fql5 now v) := 
  fun _ _ hr => selects_encodeWrite hr rfl

theorem EncodesItsRow.fqh0 (now : Cycle) (v : Byte) :
    EncodesItsRow.Statement (.fqh0 now v) := 
  fun _ _ hr => selects_encodeWrite hr rfl

theorem EncodesItsRow.fqh1 (now : Cycle) (v : Byte) :
    EncodesItsRow.Statement (.fqh1 now v) := 
  fun _ _ hr => selects_encodeWrite hr rfl

theorem EncodesItsRow.fqh2 (now : Cycle) (v : Byte) :
    EncodesItsRow.Statement (.fqh2 now v) := 
  fun _ _ hr => selects_encodeWrite hr rfl

theorem EncodesItsRow.fqh3 (now : Cycle) (v : Byte) :
    EncodesItsRow.Statement (.fqh3 now v) := 
  fun _ _ hr => selects_encodeWrite hr rfl

theorem EncodesItsRow.fqh4 (now : Cycle) (v : Byte) :
    EncodesItsRow.Statement (.fqh4 now v) := 
  fun _ _ hr => selects_encodeWrite hr rfl

theorem EncodesItsRow.fqh5 (now : Cycle) (v : Byte) :
    EncodesItsRow.Statement (.fqh5 now v) := 
  fun _ _ hr => selects_encodeWrite hr rfl

theorem EncodesItsRow.ev00 (now : Cycle) (v : Byte) :
    EncodesItsRow.Statement (.ev00 now v) := 
  fun _ _ hr => selects_encodeWrite hr rfl

theorem EncodesItsRow.ev01 (now : Cycle) (v : Byte) :
    EncodesItsRow.Statement (.ev01 now v) := 
  fun _ _ hr => selects_encodeWrite hr rfl

theorem EncodesItsRow.ev02 (now : Cycle) (v : Byte) :
    EncodesItsRow.Statement (.ev02 now v) := 
  fun _ _ hr => selects_encodeWrite hr rfl

theorem EncodesItsRow.ev03 (now : Cycle) (v : Byte) :
    EncodesItsRow.Statement (.ev03 now v) := 
  fun _ _ hr => selects_encodeWrite hr rfl

theorem EncodesItsRow.ev04 (now : Cycle) (v : Byte) :
    EncodesItsRow.Statement (.ev04 now v) := 
  fun _ _ hr => selects_encodeWrite hr rfl

theorem EncodesItsRow.ev05 (now : Cycle) (v : Byte) :
    EncodesItsRow.Statement (.ev05 now v) := 
  fun _ _ hr => selects_encodeWrite hr rfl

theorem EncodesItsRow.ev10 (now : Cycle) (v : Byte) :
    EncodesItsRow.Statement (.ev10 now v) := 
  fun _ _ hr => selects_encodeWrite hr rfl

theorem EncodesItsRow.ev11 (now : Cycle) (v : Byte) :
    EncodesItsRow.Statement (.ev11 now v) := 
  fun _ _ hr => selects_encodeWrite hr rfl

theorem EncodesItsRow.ev12 (now : Cycle) (v : Byte) :
    EncodesItsRow.Statement (.ev12 now v) := 
  fun _ _ hr => selects_encodeWrite hr rfl

theorem EncodesItsRow.ev13 (now : Cycle) (v : Byte) :
    EncodesItsRow.Statement (.ev13 now v) := 
  fun _ _ hr => selects_encodeWrite hr rfl

theorem EncodesItsRow.ev14 (now : Cycle) (v : Byte) :
    EncodesItsRow.Statement (.ev14 now v) := 
  fun _ _ hr => selects_encodeWrite hr rfl

theorem EncodesItsRow.ev15 (now : Cycle) (v : Byte) :
    EncodesItsRow.Statement (.ev15 now v) := 
  fun _ _ hr => selects_encodeWrite hr rfl

theorem EncodesItsRow.ram0 (now : Cycle) (v : Byte) :
    EncodesItsRow.Statement (.ram0 now v) := 
  fun _ _ hr => selects_encodeWrite hr rfl

theorem EncodesItsRow.ram1 (now : Cycle) (v : Byte) :
    EncodesItsRow.Statement (.ram1 now v) := 
  fun _ _ hr => selects_encodeWrite hr rfl

theorem EncodesItsRow.ram2 (now : Cycle) (v : Byte) :
    EncodesItsRow.Statement (.ram2 now v) := 
  fun _ _ hr => selects_encodeWrite hr rfl

theorem EncodesItsRow.ram3 (now : Cycle) (v : Byte) :
    EncodesItsRow.Statement (.ram3 now v) := 
  fun _ _ hr => selects_encodeWrite hr rfl

theorem EncodesItsRow.ram4 (now : Cycle) (v : Byte) :
    EncodesItsRow.Statement (.ram4 now v) := 
  fun _ _ hr => selects_encodeWrite hr rfl

theorem EncodesItsRow.swp (now : Cycle) (v : Byte) :
    EncodesItsRow.Statement (.swp now v) := 
  fun _ _ hr => selects_encodeWrite hr rfl

theorem EncodesItsRow.sstop (now : Cycle) (v : Byte) :
    EncodesItsRow.Statement (.sstop now v) := 
  fun _ _ hr => selects_encodeWrite hr rfl

theorem EncodesItsRow.rsvdOdd (now : Cycle) (off : Offset) (v : Byte) :
    EncodesItsRow.Statement (.rsvdOdd now off v) := 
  fun hw _ hr => selects_encodeWrite hr hw

theorem EncodesItsRow.rsvdA1 (now : Cycle) (off : Offset) (v : Byte) :
    EncodesItsRow.Statement (.rsvdA1 now off v) := 
  fun hw _ hr => selects_encodeWrite hr hw

theorem EncodesItsRow.rsvdTbl (now : Cycle) (off : Offset) (v : Byte) :
    EncodesItsRow.Statement (.rsvdTbl now off v) := 
  fun hw _ hr => selects_encodeWrite hr hw

theorem EncodesItsRow.rsvdChregA (now : Cycle) (off : Offset) (v : Byte) :
    EncodesItsRow.Statement (.rsvdChregA now off v) := 
  fun hw _ hr => selects_encodeWrite hr hw

theorem EncodesItsRow.rsvdChregB (now : Cycle) (off : Offset) (v : Byte) :
    EncodesItsRow.Statement (.rsvdChregB now off v) := 
  fun hw _ hr => selects_encodeWrite hr hw

theorem EncodesItsRow.rsvdSwpslotA (now : Cycle) (off : Offset) (v : Byte) :
    EncodesItsRow.Statement (.rsvdSwpslotA now off v) := 
  fun hw _ hr => selects_encodeWrite hr hw

theorem EncodesItsRow.rsvdSwpslotB (now : Cycle) (off : Offset) (v : Byte) :
    EncodesItsRow.Statement (.rsvdSwpslotB now off v) := 
  fun hw _ hr => selects_encodeWrite hr hw

theorem EncodesItsRow.rsvdRam5 (now : Cycle) (off : Offset) (v : Byte) :
    EncodesItsRow.Statement (.rsvdRam5 now off v) := 
  fun hw _ hr => selects_encodeWrite hr hw

theorem EncodesItsRow.rsvdHighA (now : Cycle) (off : Offset) (v : Byte) :
    EncodesItsRow.Statement (.rsvdHighA now off v) := 
  fun hw _ hr => selects_encodeWrite hr hw

theorem EncodesItsRow.rsvdHighB (now : Cycle) (off : Offset) (v : Byte) :
    EncodesItsRow.Statement (.rsvdHighB now off v) := 
  fun hw _ hr => selects_encodeWrite hr hw

theorem EncodesItsRow.rsvdHighC (now : Cycle) (off : Offset) (v : Byte) :
    EncodesItsRow.Statement (.rsvdHighC now off v) := 
  fun hw _ hr => selects_encodeWrite hr hw

theorem EncodesItsRow.rsvdHighD (now : Cycle) (off : Offset) (v : Byte) :
    EncodesItsRow.Statement (.rsvdHighD now off v) := 
  fun hw _ hr => selects_encodeWrite hr hw

theorem EncodesItsRow.rsvdHighE (now : Cycle) (off : Offset) (v : Byte) :
    EncodesItsRow.Statement (.rsvdHighE now off v) := 
  fun hw _ hr => selects_encodeWrite hr hw

theorem EncodesItsRow.rsvdHighF (now : Cycle) (off : Offset) (v : Byte) :
    EncodesItsRow.Statement (.rsvdHighF now off v) := 
  fun hw _ hr => selects_encodeWrite hr hw

theorem EncodesItsRow.advance (toCycle : Cycle) :
    EncodesItsRow.Statement (.advance toCycle) := fun _ _ hr => nomatch hr

theorem EncodesItsRow.reset :
    EncodesItsRow.Statement .reset := fun _ _ hr => nomatch hr

theorem EncodesItsRow.setMuted (b : Bool) :
    EncodesItsRow.Statement (.setMuted b) := fun _ _ hr => nomatch hr

theorem EncodesItsRow.pause :
    EncodesItsRow.Statement .pause := fun _ _ hr => nomatch hr

theorem EncodesItsRow.resume :
    EncodesItsRow.Statement .resume := fun _ _ hr => nomatch hr

theorem EncodesItsRow.consume :
    EncodesItsRow.Statement .consume := fun _ _ hr => nomatch hr

end Sys2Proof.Laws
end

