-- ==== Sys2Proof/Tests/Slice0.lean ====
section
/-! SUPPORT. Tests. Expected values are those of the vectors V1 to V13 and P1 to P4 of spec/95_test_vectors.md, or
are cut by hand from the address map of rule R84; each theorem names its source. -/

set_option maxRecDepth 8000

namespace Sys2Proof.Tests

open Sys2Proof.Machine

/-- The answer is a next state of which `p` holds. -/
def after (r : Result) (p : State → Bool) : Bool :=
  match r with
  | .next t => p t
  | .fault _ => false
  | .refused _ => false

/-- The transaction at an offset of the window, as rule R93 writes it. -/
def word (off : Offset) (v : Byte) : PortOp := .write ⟨5, 0x01000000 + off.zeroExtend 32, v.zeroExtend 16⟩

/-- A step that performs the transaction at an offset with stamp 0, from `s`. -/
def write (off : Offset) (v : Byte) (s : State) : Result :=
  step { s with pending := [.write ⟨0, 0x01000000 + off.zeroExtend 32, v.zeroExtend 16⟩] }

/-! ### Well-formedness: a term that each check refuses -/

theorem test_rsvdOdd_ill_formed : (Instr.rsvdOdd 0 0x400 0).wellFormed = false := by decide
theorem test_rsvdA1_ill_formed : (Instr.rsvdA1 0 0x403 0).wellFormed = false := by decide
theorem test_rsvdTbl_ill_formed : (Instr.rsvdTbl 0 0x280 0).wellFormed = false := by decide
theorem test_rsvdChregA_ill_formed : (Instr.rsvdChregA 0 0x520 0).wellFormed = false := by decide
theorem test_rsvdChregB_ill_formed : (Instr.rsvdChregB 0 0x420 0).wellFormed = false := by decide
theorem test_rsvdSwpslotA_ill_formed : (Instr.rsvdSwpslotA 0 0x51C 0).wellFormed = false := by decide
theorem test_rsvdSwpslotB_ill_formed : (Instr.rsvdSwpslotB 0 0x51C 0).wellFormed = false := by decide
theorem test_rsvdRam5_ill_formed : (Instr.rsvdRam5 0 0x518 0).wellFormed = false := by decide
theorem test_rsvdHighA_ill_formed : (Instr.rsvdHighA 0 0x580 0).wellFormed = false := by decide
theorem test_rsvdHighB_ill_formed : (Instr.rsvdHighB 0 0x584 0).wellFormed = false := by decide
theorem test_rsvdHighC_ill_formed : (Instr.rsvdHighC 0 0x58C 0).wellFormed = false := by decide
theorem test_rsvdHighD_ill_formed : (Instr.rsvdHighD 0 0x590 0).wellFormed = false := by decide
theorem test_rsvdHighE_ill_formed : (Instr.rsvdHighE 0 0x5A0 0).wellFormed = false := by decide
theorem test_rsvdHighF_ill_formed : (Instr.rsvdHighF 0 0x5C0 0).wellFormed = false := by decide

/-! ### Decoding: every row's word, the offset written out from the formats of rules R82, R83, R85 -/

/-- Format T: REGION 0, TABLE in bits 9:7, INDEX in bits 6:2 (rule R82). -/
theorem test_decode_tables :
    decode (word 0b00000000000 0x3F) = .wave0 5 0 0x3F ∧
    decode (word 0b00011111100 0x3F) = .wave1 5 31 0x3F ∧
    decode (word 0b00101000000 0x3F) = .wave2 5 16 0x3F ∧
    decode (word 0b00110000100 0x3F) = .wave3 5 1 0x3F ∧
    decode (word 0b01000101000 0x3F) = .wave4 5 10 0x3F ∧
    decode (word 0b01011010100 0x3F) = .modtbl 5 21 0x3F := by
  decide

/-- Format C: BLOCK is 16 + c in bits 10:6, REG 0 in bits 5:2 (rule R83). -/
theorem test_decode_int :
    decode (word 0b10000000000 0xA0) = .int0 5 0xA0 ∧
    decode (word 0b10001000000 0xA1) = .int1 5 0xA1 ∧
    decode (word 0b10010000000 0xA2) = .int2 5 0xA2 ∧
    decode (word 0b10011000000 0xA3) = .int3 5 0xA3 ∧
    decode (word 0b10100000000 0xA4) = .int4 5 0xA4 ∧
    decode (word 0b10101000000 0xA5) = .int5 5 0xA5 := by
  decide

/-- Format C: BLOCK is 16 + c in bits 10:6, REG 1 in bits 5:2 (rule R83). -/
theorem test_decode_lrv :
    decode (word 0b10000000100 0xA0) = .lrv0 5 0xA0 ∧
    decode (word 0b10001000100 0xA1) = .lrv1 5 0xA1 ∧
    decode (word 0b10010000100 0xA2) = .lrv2 5 0xA2 ∧
    decode (word 0b10011000100 0xA3) = .lrv3 5 0xA3 ∧
    decode (word 0b10100000100 0xA4) = .lrv4 5 0xA4 ∧
    decode (word 0b10101000100 0xA5) = .lrv5 5 0xA5 := by
  decide

/-- Format C: BLOCK is 16 + c in bits 10:6, REG 2 in bits 5:2 (rule R83). -/
theorem test_decode_fql :
    decode (word 0b10000001000 0xA0) = .fql0 5 0xA0 ∧
    decode (word 0b10001001000 0xA1) = .fql1 5 0xA1 ∧
    decode (word 0b10010001000 0xA2) = .fql2 5 0xA2 ∧
    decode (word 0b10011001000 0xA3) = .fql3 5 0xA3 ∧
    decode (word 0b10100001000 0xA4) = .fql4 5 0xA4 ∧
    decode (word 0b10101001000 0xA5) = .fql5 5 0xA5 := by
  decide

/-- Format C: BLOCK is 16 + c in bits 10:6, REG 3 in bits 5:2 (rule R83). -/
theorem test_decode_fqh :
    decode (word 0b10000001100 0xA0) = .fqh0 5 0xA0 ∧
    decode (word 0b10001001100 0xA1) = .fqh1 5 0xA1 ∧
    decode (word 0b10010001100 0xA2) = .fqh2 5 0xA2 ∧
    decode (word 0b10011001100 0xA3) = .fqh3 5 0xA3 ∧
    decode (word 0b10100001100 0xA4) = .fqh4 5 0xA4 ∧
    decode (word 0b10101001100 0xA5) = .fqh5 5 0xA5 := by
  decide

/-- Format C: BLOCK is 16 + c in bits 10:6, REG 4 in bits 5:2 (rule R83). -/
theorem test_decode_ev0 :
    decode (word 0b10000010000 0xA0) = .ev00 5 0xA0 ∧
    decode (word 0b10001010000 0xA1) = .ev01 5 0xA1 ∧
    decode (word 0b10010010000 0xA2) = .ev02 5 0xA2 ∧
    decode (word 0b10011010000 0xA3) = .ev03 5 0xA3 ∧
    decode (word 0b10100010000 0xA4) = .ev04 5 0xA4 ∧
    decode (word 0b10101010000 0xA5) = .ev05 5 0xA5 := by
  decide

/-- Format C: BLOCK is 16 + c in bits 10:6, REG 5 in bits 5:2 (rule R83). -/
theorem test_decode_ev1 :
    decode (word 0b10000010100 0xA0) = .ev10 5 0xA0 ∧
    decode (word 0b10001010100 0xA1) = .ev11 5 0xA1 ∧
    decode (word 0b10010010100 0xA2) = .ev12 5 0xA2 ∧
    decode (word 0b10011010100 0xA3) = .ev13 5 0xA3 ∧
    decode (word 0b10100010100 0xA4) = .ev14 5 0xA4 ∧
    decode (word 0b10101010100 0xA5) = .ev15 5 0xA5 := by
  decide

/-- RAM is REG 6 of blocks 0 to 4, SWP REG 7 of block 4, SSTOP REG 0 of BLOCK 0b10110 (rules R83, R85). -/
theorem test_decode_ram_swp_sstop :
    decode (word 0b10000011000 0x00) = .ram0 5 0x00 ∧
    decode (word 0b10001011000 0x01) = .ram1 5 0x01 ∧
    decode (word 0b10010011000 0x02) = .ram2 5 0x02 ∧
    decode (word 0b10011011000 0x03) = .ram3 5 0x03 ∧
    decode (word 0b10100011000 0x04) = .ram4 5 0x04 ∧
    decode (word 0b10100011100 0x1A) = .swp 5 0x1A ∧
    decode (word 0b10110000000 0x01) = .sstop 5 0x01 := by
  decide

/-- The reserved rows, a word each from the classes of rule R90. -/
theorem test_decode_reserved :
    decode (word 0b10000000001 0x55) = .rsvdOdd 5 0b10000000001 0x55 ∧
    decode (word 0b10000000010 0x55) = .rsvdA1 5 0b10000000010 0x55 ∧
    decode (word 0b01100000000 0x55) = .rsvdTbl 5 0b01100000000 0x55 ∧
    decode (word 0b10000100000 0x55) = .rsvdChregA 5 0b10000100000 0x55 ∧
    decode (word 0b10101111100 0x55) = .rsvdChregB 5 0b10101111100 0x55 ∧
    decode (word 0b10011011100 0x55) = .rsvdSwpslotA 5 0b10011011100 0x55 ∧
    decode (word 0b10101011100 0x55) = .rsvdSwpslotB 5 0b10101011100 0x55 ∧
    decode (word 0b10101011000 0x55) = .rsvdRam5 5 0b10101011000 0x55 ∧
    decode (word 0b10110000100 0x55) = .rsvdHighA 5 0b10110000100 0x55 ∧
    decode (word 0b10110001100 0x55) = .rsvdHighB 5 0b10110001100 0x55 ∧
    decode (word 0b10110010000 0x55) = .rsvdHighC 5 0b10110010000 0x55 ∧
    decode (word 0b10110111100 0x55) = .rsvdHighD 5 0b10110111100 0x55 ∧
    decode (word 0b10111000000 0x55) = .rsvdHighE 5 0b10111000000 0x55 ∧
    decode (word 0b11111111100 0x55) = .rsvdHighF 5 0b11111111100 0x55 := by
  decide

/-- The port operations without an encoding (rule R89). -/
theorem test_decode_ports :
    decode (.advance 7) = .advance 7 ∧
    decode .reset = .reset ∧
    decode (.setMuted true) = .setMuted true ∧
    decode .pause = .pause ∧
    decode .resume = .resume ∧
    decode .consume = .consume := by
  decide

/-- The word layout the host numbers by: address first, then value, then the stamp (assumption 13). -/
theorem test_decode_table_word :
    decodeTableWord 16 0x480 = some (.int2 0 0) ∧
    decodeTableWord 48 0x00A301000480 = some (.int2 0 0xA3) ∧
    decodeTableWord 112 0x000000000000000700A301000480 = some (.int2 7 0xA3) ∧
    decodeTableWord 113 0 = none := by
  decide

/-- Bits 31:11 of the address and the high byte of the value are ignored (V1.3). -/
theorem test_ignored_bits : decode (.write ⟨0, 0xFFFFFC00, 0x1280⟩) = .int0 0 0x80 := by decide

/-- `encode` writes the example of rule R95. -/
theorem test_encode_example : encode (.int2 0 0xA3) = .write ⟨0, 0x01000480, 0x00A3⟩ := by decide

/-! ### One step of each instruction, by the vectors -/

/-- P3's parameters: three buffers of four frames. -/
def small : Params := { Params.default with nBuf := 3, frames := 4 }

/-- A state with those parameters. -/
def s0 : State := State.powerOn small

/-- `s0` with a channel replaced. -/
def withCh (c : Chan) (ch : Channel) : State := s0.setCh c ch

/-- An enabled channel. -/
def on : Channel := { Channel.reset with int := 0x80 }

/-- V2, step 1. -/
theorem test_wave0_stores :
    after (write 0x000 0x11 s0) (fun t => t.wave 0 0 == 0x11 && t.mem == [(0, 0x11)]) = true := by decide

/-- V2, step 3: rejected while a wave channel is enabled. -/
theorem test_wave0_rejected : after (write 0x000 0x21 (withCh 0 on)) (fun t => t.mem == []) = true := by decide

/-- V5.5 loads wave table 1. -/
theorem test_wave1_stores : after (write 0x084 62 s0) (fun t => t.wave 1 1 == 62) = true := by decide

/-- P3, step 1. -/
theorem test_wave2_stores : after (write 0x17C 0x20 s0) (fun t => t.wave 2 31 == 0x20) = true := by decide

/-- V2, step 1. -/
theorem test_wave3_stores : after (write 0x1FC 0x12 s0) (fun t => t.wave 3 31 == 0x12) = true := by decide

/-- V2, step 4: accepted while only a wave channel is enabled. -/
theorem test_wave4_accepted :
    after (write 0x200 0x23 (withCh 0 on)) (fun t => t.wave 4 0 == 0x23) = true := by decide

/-- V2, step 6: rejected while channel 5 is enabled. -/
theorem test_wave4_rejected : after (write 0x200 0x33 (withCh 5 on)) (fun t => t.mem == []) = true := by decide

/-- V2, step 4. -/
theorem test_modtbl_accepted :
    after (write 0x280 0x24 (withCh 0 on)) (fun t => t.mod 0 == 0x24) = true := by decide

/-- V2, step 6. -/
theorem test_modtbl_rejected : after (write 0x280 0x34 (withCh 5 on)) (fun t => t.mem == []) = true := by decide

/-- V3.1. -/
theorem test_int0 :
    after (write 0x400 0x80 (withCh 0 { Channel.reset with fql := 0x98, fqh := 0x07 }))
      (fun t => (t.ch 0).int == 0x80 && (t.ch 0).frequencyTimer == 416 && (t.ch 0).shutoffTimer == 0) = true := by
  decide

/-- V3.4: the enable bit clear still restarts. -/
theorem test_int1 :
    after (write 0x440 0x05 { withCh 1 { Channel.reset with frequencyTimer := 100 } with
        samplePhase := #v[0, 9, 0, 0, 0] })
      (fun t => (t.ch 1).int == 0x05 && (t.ch 1).frequencyTimer == 8192 && (t.ch 1).shutoffTimer == 5 &&
        t.phase 1 == 0) = true := by
  decide

/-- Rule R95's transaction, at power-on. -/
theorem test_int2 :
    after (write 0x480 0xA3 s0)
      (fun t => enabled t 2 && (t.ch 2).shutoffTimer == 3 && (t.ch 2).frequencyTimer == 8192) = true := by
  decide

/-- Rule R124 (a): the envelope of a restarted channel stays. -/
theorem test_int3 :
    after (write 0x4C0 0x80 (withCh 3 { Channel.reset with envelopeTimer := 2, envelopeFrozen := true }))
      (fun t => enabled t 3 && (t.ch 3).envelopeTimer == 2 && (t.ch 3).envelopeFrozen) = true := by
  decide

/-- V3.2. -/
theorem test_int4 :
    after (write 0x500 0x9F { s0 with swp := 0xA3, sweepFrequency := 0x234, modulationLock := .lowByte })
      (fun t => t.sweepFrequency == 564 && t.sweepTimer == 16 && t.modulationPhase == .armed &&
        t.modulationLock == .none && (t.ch 4).shutoffTimer == 31 && (t.ch 4).frequencyTimer == 5936) = true := by
  decide

/-- V3.3. -/
theorem test_int5 :
    after (write 0x540 0xA0 { withCh 5 { Channel.reset with fql := 0xFF, fqh := 0x07 } with noiseShift := 0x1234 })
      (fun t => t.noiseShift == 0 && (t.ch 5).frequencyTimer == 40 && (t.ch 5).shutoffTimer == 0) = true := by
  decide

/-- V5.5: gains 29 and 16. -/
theorem test_lrv0 :
    after (write 0x404 0xF8 (withCh 0 { Channel.reset with envelopeValue := 15 }))
      (fun t => gainL t 0 == 29 && gainR t 0 == 16) = true := by
  decide

/-- V5.5: gains 5 and 16. -/
theorem test_lrv1 :
    after (write 0x444 0x4F (withCh 1 { Channel.reset with envelopeValue := 8 }))
      (fun t => gainL t 1 == 5 && gainR t 1 == 16) = true := by
  decide

/-- P2: pan 8 left, 15 right. -/
theorem test_lrv5 :
    after (write 0x544 0x8F (withCh 5 { Channel.reset with envelopeValue := 4 }))
      (fun t => gainL t 5 == 5 && gainR t 5 == 8) = true := by
  decide

/-- V3.10: no reload of the timer. -/
theorem test_fql0 :
    after (write 0x408 0x30 (withCh 0 { Channel.reset with fql := 0x98, fqh := 0x07, frequencyTimer := 416 }))
      (fun t => period t 0 == 832 && (t.ch 0).frequencyTimer == 416) = true := by
  decide

/-- V3.5. -/
theorem test_fql4 :
    after (write 0x508 0x10 { s0 with sweepFrequency := 0x2A5, modulationLock := .highByte })
      (fun t => (t.ch 4).fql == 0x10 && t.sweepFrequency == 0x210 && t.modulationLock == .highByte) = true := by
  decide

/-- V3.6. -/
theorem test_fqh4 :
    after (write 0x50C 0xFF { withCh 4 { Channel.reset with ev1 := 0x50 } with sweepFrequency := 0x2A5 })
      (fun t => (t.ch 4).fqh == 0xFF && t.sweepFrequency == 0x7A5 && t.modulationLock == .highByte) = true := by
  decide

/-- V3.3: period 40. -/
theorem test_fqh5 :
    after (write 0x54C 0x07 (withCh 5 { Channel.reset with fql := 0xFF })) (fun t => period t 5 == 40) = true := by
  decide

/-- V9.4: the thaw keeps the envelope timer. -/
theorem test_ev00 :
    after (write 0x410 0x51 (withCh 0 { Channel.reset with envelopeTimer := 1, envelopeFrozen := true }))
      (fun t => (t.ch 0).envelopeValue == 5 && !(t.ch 0).envelopeFrozen && (t.ch 0).envelopeTimer == 1) = true := by
  decide

/-- V3.7: value 0 closes the gate. -/
theorem test_ev02 :
    after (write 0x490 0x0F (withCh 2 { on with envelopeValue := 15 }))
      (fun t => (t.ch 2).envelopeValue == 0 && !gateOpen t 2 && enabled t 2) = true := by
  decide

/-- EV1 of a wave channel leaves the LFSR alone (rule R115). -/
theorem test_ev14 :
    after (write 0x514 0x50 { s0 with noiseShift := 0x1234 })
      (fun t => modulationEnabled t && t.noiseShift == 0x1234) = true := by
  decide

/-- V3.8. -/
theorem test_ev15 :
    after (write 0x554 0x30 { s0 with noiseShift := 0x1234 })
      (fun t => (t.ch 5).ev1 == 0x30 && noiseTapBit t.cfg (t.ch 5).ev1 == 4 && t.noiseShift == 0) = true := by
  decide

/-- V5.8: a select out of range has level 0. -/
theorem test_ram0 :
    after (write 0x418 0x05 { s0 with mem := [(0, 0x3F)] }) (fun t => level t 0 == 0) = true := by decide

/-- V5.6 and P1: RAM selects the table. -/
theorem test_ram1 :
    after (write 0x458 0x01 { s0 with mem := [(0x80, 0xFF)], samplePhase := #v[1, 0, 1, 1, 1] })
      (fun t => level t 1 == 63) = true := by
  decide

/-- V1.6. -/
theorem test_swp : after (write 0x51C 0x1A s0) (fun t => t.swp == 0x1A && t.sweepTimer == 0) = true := by decide

/-- V3.9. -/
theorem test_sstop :
    after (write 0x580 0x01 ((withCh 1 { on with int := 0xA3 }).setCh 5 { on with int := 0xFF }))
      (fun t => (t.ch 1).int == 0x23 && (t.ch 5).int == 0x7F) = true := by
  decide

/-- V3.9, bit 0 clear. -/
theorem test_sstop_without_stop : after (write 0x580 0xFE (withCh 1 on)) (fun t => enabled t 1) = true := by decide

/-- V1.1: bits 0 and 1 of the address reject before the catch-up. -/
theorem test_unaligned :
    after (exec (decode (.write ⟨5000, 0x01000401, 0x80⟩)) s0) (fun t => t == s0) = true ∧
    after (exec (decode (.write ⟨5000, 0x01000402, 0x80⟩)) s0) (fun t => t == s0) = true := by
  decide

/-- V1.2: an unmapped offset still catches up. -/
theorem test_rsvdTbl :
    after (exec (decode (.write ⟨5000, 0x01000300, 0x55⟩)) s0)
      (fun t => t.lastSynthesizedCycle == 4992 && t.effectDivider == 36 && t.mem == []) = true := by
  decide

/-- V1.5. -/
theorem test_unmapped :
    after (write 0x558 0x03 s0) (fun t => t == s0) = true ∧ after (write 0x41C 0xFF s0) (fun t => t == s0) = true ∧
    after (write 0x420 0xFF s0) (fun t => t == s0) = true ∧ after (write 0x7FC 0xFF s0) (fun t => t == s0) = true ∧
    after (write 0x584 0x01 s0) (fun t => t == s0) = true := by
  decide

/-- R102: with a smaller threshold an offset at it takes effect without a catch-up, one below it catches up. -/
theorem test_smaller_threshold :
    (let s := { s0 with cfg := { small with catchupThreshold := 0x404 } }
     after (exec (.int0 832 0x80) s) (fun t => enabled t 0 && t.lastSynthesizedCycle == 832) = true ∧
     after (exec (.lrv0 832 0x80) s) (fun t => (t.ch 0).lrv == 0x80 && t.lastSynthesizedCycle == 0) = true) := by
  decide

/-- R7: the other parameters of the WRITE: a window of ten bits mirrors INT0 onto WAVE0; a class that ends at 0x200
leaves WAVE4 unlocked; a stamp of 17 bits is refused at 16. -/
theorem test_write_parameters :
    after (write 0x400 0x12 { s0 with cfg := { small with windowMask := 0x3FF } }) (fun t => t.mem == [(0, 0x12)]) =
      true ∧
    after (write 0x200 0x12 { withCh 5 on with cfg := { small with waveRegionEnd := 0x200 } })
      (fun t => t.wave 4 0 == 0x12) = true ∧
    after (write 0x080 0x12 { withCh 4 on with cfg := { small with waveLockSplit := 0x80 } })
      (fun t => t.wave 1 0 == 0x12) = true ∧
    (match step { s0 with cfg := { small with cycleBits := 16 }, pending := [.advance 65536] } with
      | .refused r => r == .stampOutOfRange
      | .next _ => false
      | .fault _ => false) = true := by
  decide

/-- V4.1. -/
theorem test_advance :
    after (exec (.advance 1000) s0)
      (fun t => t.lastSynthesizedCycle == 832 && t.fillPos == 2 && t.effectDivider == 46) = true := by
  decide

/-- P1: the first two samples of the ramp, and the phase after them. -/
theorem test_advance_ramp :
    after (exec (.advance 832) { withCh 0 { on with
        lrv := 0xFF, fql := 0x98, fqh := 0x07, ev0 := 0xF0, frequencyTimer := 416, envelopeValue := 15 } with
        mem := [(4, 1), (8, 2)] })
      (fun t => (t.bufAt 0).take 2 == [⟨0, 0⟩, ⟨29, 29⟩] && t.phase 0 == 2) = true := by
  decide

/-- V13.1: the control flags stay. -/
theorem test_reset :
    after (step { s0 with swp := 0xA3, effectDivider := 28, prodCursor := 1, muted := true, pending := [.reset] })
      (fun t => t == { s0 with muted := true }) = true := by
  decide

/-- P3, step 8. -/
theorem test_setMuted : after (step { s0 with pending := [.setMuted true] }) (fun t => t.muted) = true := by decide

/-- P3, step 7. -/
theorem test_pause : after (step { s0 with pending := [.pause] }) (fun t => t.paused) = true := by decide

/-- P3, step 7. -/
theorem test_resume :
    after (step { s0 with paused := true, pending := [.resume] }) (fun t => !t.paused) = true := by decide

/-- P3, step 6. -/
theorem test_consume :
    after (step { s0 with
        buf := [[⟨5510, 0⟩, ⟨5510, 0⟩, ⟨5510, 0⟩, ⟨5510, 0⟩], [], []], ready := [true, true, false], prodCursor := 2
        pending := [.consume] })
      (fun t => t.returned == some [⟨5510, 0⟩, ⟨5510, 0⟩, ⟨5510, 0⟩, ⟨5510, 0⟩] && t.consCursor == 1 &&
        t.ready == [false, true, false]) = true := by
  decide

/-- V12.2. -/
theorem test_consume_underrun :
    after (step { s0 with pending := [.consume] })
      (fun t => t.returned == some [⟨0, 0⟩, ⟨0, 0⟩, ⟨0, 0⟩, ⟨0, 0⟩] && t.consCursor == 0) = true := by
  decide

/-! ### The shared operations, by the vectors -/

/-- V6.1: tapSel 0 and 3 from 0, ticks 8 to 10 and 16 to 18. -/
theorem test_lfsr :
    lfsrShift 7 14 0x00FF = 0x01FE ∧ lfsrShift 7 14 0x7F80 = 0x7F01 ∧ lfsrShift 7 4 0x001F = 0x003E ∧
    lfsrShift 7 4 0x00F8 = 0x01F1 ∧ lfsrShift 7 4 0x7C60 = 0x78C1 := by
  decide

/-- P2: the noise sample 0. -/
theorem test_noise_sample :
    after (exec (.advance 416) (withCh 5 { on with
        lrv := 0x8F, fql := 0xFF, fqh := 0x07, frequencyTimer := 40, envelopeValue := 4 }))
      (fun t => t.noiseShift == 0x03FC && (t.ch 5).frequencyTimer == 24 &&
        (t.bufAt 0).take 1 == [⟨315, 504⟩]) = true := by
  decide

/-- V11.1, V11.3, V11.6 and V11.8. -/
theorem test_postFrame :
    postFrame 256 0 ⟨29, 58⟩ = (⟨95, 285⟩, 0) ∧
    postFrame 256 0 ⟨5519, 5520⟩ = (⟨32680, BitVec.ofInt 16 (-32761)⟩, 0) ∧
    postFrame 256 (-1000) ⟨464, 464⟩ = (⟨1759, 1759⟩, -996) ∧
    postFrame 256 1000 ⟨0, 0⟩ = (⟨1000, 1000⟩, 1000) ∧
    postFrame 256 30000 ⟨16, 464⟩ = (⟨30000, 32660⟩, 29905) ∧
    postFrame 256 (-32768) ⟨10962, 0⟩ = (⟨32435, BitVec.ofInt 16 (-32640)⟩, -32640) := by
  decide +kernel

/-- V10.1, tick 2, and V10.3. -/
theorem test_sweep :
    (let t := sweepModStage { withCh 4 { on with ev1 := 0x40 } with swp := 0x21, sweepFrequency := 1000, sweepTimer := 1 }
     t.sweepFrequency = 500 ∧ t.sweepTimer = 2 ∧ t.modulationCounter = 1) ∧
    (let t := sweepModStage { withCh 4 on with swp := 0x08, sweepFrequency := 1024 }
     (t.ch 4).int = 0 ∧ t.sweepFrequency = 1024) := by
  decide

/-- V10.6, ticks 2 and 3: the lock quirk. -/
theorem test_modulation_lock :
    (let t := sweepModStage { withCh 4 { on with ev1 := 0x70, fql := 0xFE, fqh := 0x01 } with
        swp := 0x10, mem := [(0x284, 0xFF)], modulationCounter := 1, modulationLock := .lowByte }
     t.sweepFrequency = 0x1FE) ∧
    (let t := sweepModStage { withCh 4 { on with ev1 := 0x70, fql := 0xFE, fqh := 0x02 } with
        swp := 0x10, mem := [(0x288, 0xFF)], modulationCounter := 2, modulationLock := .highByte }
     t.sweepFrequency = 0x2FD) := by
  decide

/-- V8.1 and V9.1, V9.2: shutoff and envelope stages of one channel. -/
theorem test_stages :
    shutoffChannel { on with int := 0xA2, shutoffTimer := 0 } = { on with int := 0x22, shutoffTimer := 0x1F } ∧
    shutoffChannel { on with int := 0xA2, shutoffTimer := 2 } = { on with int := 0xA2, shutoffTimer := 1 } ∧
    envelopeChannel { on with ev0 := 0x31, ev1 := 1, envelopeValue := 3 } =
      { on with ev0 := 0x31, ev1 := 1, envelopeValue := 2, envelopeTimer := 1 } ∧
    envelopeChannel { on with ev0 := 0x31, ev1 := 1 } =
      { on with ev0 := 0x31, ev1 := 1, envelopeTimer := 1, envelopeFrozen := true } ∧
    envelopeChannel { on with ev0 := 0xE8, ev1 := 3, envelopeValue := 15 } =
      { on with ev0 := 0xE8, ev1 := 3, envelopeValue := 14 } := by
  decide

/-! ### The hypotheses of the statements can be met

One theorem for each statement with hypotheses: a concrete state and operands that meet all of them, for every
clause, at the boundary of its range. -/

/-- A channel that plays table 0 with a period of one sample. -/
def playing : Channel :=
  { on with lrv := 0xFF, fql := 0x98, fqh := 0x07, ev0 := 0xF0, frequencyTimer := 416, envelopeValue := 15 }

/-- A state in the middle of a run: six samples produced, one buffer queued, channel 0 playing. -/
def live : State :=
  { withCh 0 playing with
    mem := [(4, 1), (8, 2)], ready := [true, false, false], prodCursor := 1, fillPos := 2, effectDivider := 42
    lastSynthesizedCycle := 2496, pending := [.advance 2912] }

theorem live_ringShape : RingShape live :=
  ⟨by decide, by decide, by decide, by decide, by decide, by decide⟩

theorem live_ranges : Ranges live :=
  ⟨by decide, by decide, by decide, by decide, by decide, by decide, by decide, by decide⟩

theorem live_inv : Inv live :=
  ⟨by decide, live_ringShape, by unfold RingOwned; decide, live_ranges, by decide, by decide,
    by unfold TablesCanonical; decide⟩

theorem test_hyp_DecodeOfEncodeIsTheInstruction :
    (Instr.rsvdRam5 0 0x558 3).wellFormed = true ∧ (Instr.rsvdHighF 0 0x7FC 3).wellFormed = true ∧
    (Instr.wave3 0 31 1).wellFormed = true ∧ Instr.pause.wellFormed = true := by
  decide

/-- A pending operation, a stamp of 64 bits and one of 65, nothing pending, and parameters that break a constraint. -/
theorem test_hyp_StepRunsTheDecodedOperation :
    (live.cfg.Valid ∧ live.pending = .advance 2912 :: [] ∧ live.cfg.windowMask = 0x7FF ∧
      (PortOp.advance (2 ^ 64 - 1)).stamp < 2 ^ live.cfg.cycleBits) ∧
    2 ^ live.cfg.cycleBits ≤ (PortOp.advance (2 ^ 64)).stamp ∧
    (s0.cfg.Valid ∧ s0.pending = []) ∧
    ¬ (State.cfg { s0 with cfg := { small with frames := 0 } }).Valid := by
  decide

theorem test_hyp_UnalignedWriteDoesNothing :
    (0x01000403 : BitVec 32).getLsbD 0 = true ∧
    (0x01000402 : BitVec 32).getLsbD 0 = false ∧ (0x01000402 : BitVec 32).getLsbD 1 = true := by
  decide

theorem test_hyp_UnmappedWriteOnlyCatchesUp :
    ∀ off ∈ [0x300, 0x3FC, 0x420, 0x43C, 0x460, 0x560, 0x57C, 0x41C, 0x45C, 0x49C, 0x4DC, 0x55C, 0x558, 0x584, 0x7FC],
      off = ((BitVec.ofNat 32 (0x01000000 + off)).extractLsb' 0 11).toNat ∧ off % 4 = 0 ∧
      ((0x300 ≤ off ∧ off ≤ 0x3FC) ∨ (0x400 ≤ off ∧ off < 0x580 ∧ 0x20 ≤ off % 0x40) ∨
        (off = 0x41C ∨ off = 0x45C ∨ off = 0x49C ∨ off = 0x4DC ∨ off = 0x55C) ∨ off = 0x558 ∨ 0x584 ≤ off) := by
  decide

/-- The highest aligned offset with the default threshold; with a threshold of 0x400 the last offset below it and the
first one above. -/
theorem test_hyp_AlignedWriteProgressIsItsCatchUp :
    0x7FC = ((0x010007FC : BitVec 32).extractLsb' 0 11).toNat ∧ (0x010007FC : BitVec 32).getLsbD 0 = false ∧
    (0x010007FC : BitVec 32).getLsbD 1 = false ∧ live.cfg.catchupThreshold = 0x800 ∧
    0x7FC < live.cfg.catchupThreshold ∧ (0x3FC : Offset).toNat < 0x400 ∧ 0x400 ≤ (0x400 : Offset).toNat ∧
    (State.cfg { live with cfg := { small with catchupThreshold := 0x400 } }).catchupThreshold = 0x400 := by
  decide

theorem test_hyp_IgnoredBitsHaveNoEffect :
    (∀ k, k < 11 → (0x01000400 : BitVec 32).getLsbD k = (0xFFFFFC00 : BitVec 32).getLsbD k) ∧
    (∀ k, k < 8 → (0x0080 : BitVec 16).getLsbD k = (0x1280 : BitVec 16).getLsbD k) ∧
    (∀ k, k < 11 → (0x3FF : Offset).getLsbD k = true →
      (0x01000000 : BitVec 32).getLsbD k = (0x01000400 : BitVec 32).getLsbD k) := by
  decide

/-- Locked by channel 5 at the last upper entry, by a wave channel at the last lower one; not locked with nothing
enabled, by a wave channel at the first upper entry, and beyond a smaller class. -/
theorem test_hyp_WaveWriteStoresUnlessLocked :
    (let u := withCh 5 on
     u = catchUp (BitVec.ofNat 11 0x27C) 0 u ∧ 0x27C = 0x80 * (4 : WaveChan).val + 4 * (31 : Entry).toNat ∧
      Memory.wf u.mem = true ∧ u.cfg.waveRegionEnd = 0x400 ∧ u.cfg.waveLockSplit = 0x200 ∧ enabled u 5 = true) ∧
    (let u := withCh 4 on
     u = catchUp (BitVec.ofNat 11 0x1FC) 0 u ∧ 0x1FC = 0x80 * (3 : WaveChan).val + 4 * (31 : Entry).toNat ∧
      Memory.wf u.mem = true ∧ 0x1FC < u.cfg.waveLockSplit ∧ ∃ c : Chan, c.val ≤ 4 ∧ enabled u c = true) ∧
    (s0 = catchUp (BitVec.ofNat 11 0) 0 s0 ∧ Memory.wf s0.mem = true ∧
      ¬ ∃ c : Chan, enabled s0 c = true) ∧
    (let u := withCh 4 on
     u = catchUp (BitVec.ofNat 11 0x200) 0 u ∧ 0x200 = 0x80 * (4 : WaveChan).val + 4 * (0 : Entry).toNat ∧
      ¬ 0x200 < u.cfg.waveLockSplit ∧ enabled u 5 = false) ∧
    (let u := { withCh 5 on with cfg := { small with waveRegionEnd := 0x200 } }
     u = catchUp (BitVec.ofNat 11 0x200) 0 u ∧ u.cfg.Valid ∧ ¬ 0x200 < u.cfg.waveRegionEnd ∧ enabled u 5 = true) := by
  decide

theorem test_hyp_ModulationWriteStoresUnlessLocked :
    (let u := withCh 5 on
     u = catchUp (BitVec.ofNat 11 0x2FC) 0 u ∧ 0x2FC = 0x280 + 4 * (31 : Entry).toNat ∧
      Memory.wf u.mem = true ∧ u.cfg.waveRegionEnd = 0x400 ∧ u.cfg.waveLockSplit = 0x200 ∧ enabled u 5 = true) ∧
    (let u := withCh 4 on
     u = catchUp (BitVec.ofNat 11 0x280) 0 u ∧ 0x280 = 0x280 + 4 * (0 : Entry).toNat ∧
      Memory.wf u.mem = true ∧ ¬ 0x280 < u.cfg.waveLockSplit ∧ enabled u 5 = false) := by
  decide

theorem test_hyp_IntWriteRestartsTheChannel :
    ∀ c : Chan, live = catchUp (BitVec.ofNat 11 (0x400 + 0x40 * c.val)) 2496 live := by
  decide

theorem test_hyp_LrvWriteStoresThePan :
    (∀ c : Chan, live = catchUp (BitVec.ofNat 11 (0x404 + 0x40 * c.val)) 2496 live) ∧
    (0x0F : Byte).toNat / 16 = 0 ∧ (0xF0 : Byte).toNat % 16 = 0 := by
  decide

theorem test_hyp_FqlWriteStoresTheLowByte :
    ∀ c : Chan, live = catchUp (BitVec.ofNat 11 (0x408 + 0x40 * c.val)) 2496 live := by
  decide

theorem test_hyp_FqhWriteStoresTheHighBits :
    ∀ c : Chan, live = catchUp (BitVec.ofNat 11 (0x40C + 0x40 * c.val)) 2496 live := by
  decide

theorem test_hyp_Ev0WriteLatchesTheEnvelope :
    (∀ c : Chan, live = catchUp (BitVec.ofNat 11 (0x410 + 0x40 * c.val)) 2496 live) ∧
    (0x0F : Byte).toNat / 16 = 0 := by
  decide

theorem test_hyp_Ev1WriteStoresAndResetsTheNoise :
    ∀ c : Chan, live = catchUp (BitVec.ofNat 11 (0x414 + 0x40 * c.val)) 2496 live := by
  decide

theorem test_hyp_RamWriteSelectsTheWave :
    (∀ c : WaveChan, live = catchUp (BitVec.ofNat 11 (0x418 + 0x40 * c.val)) 2496 live) ∧
    5 ≤ (0x05 : Byte).toNat % 16 ∧ (0xF4 : Byte).toNat % 16 = (4 : WaveChan).val := by
  decide

theorem test_hyp_SwpStoresAndSstopDisables :
    live = catchUp 0x51C 2496 live ∧ live = catchUp 0x580 2496 live ∧
    (0xFE : Byte).getLsbD 0 = false ∧ (0x01 : Byte).getLsbD 0 = true := by
  decide

theorem test_hyp_LockedTablesDoNotChange :
    (∃ t, exec (.wave4 0 0 0x33) (withCh 5 on) = .next t ∧ enabled t 5 = true ∧
      (withCh 5 on).cfg.waveRegionEnd = 0x400 ∧ 0x200 < (withCh 5 on).cfg.waveRegionEnd) ∧
    ∃ t, exec (.wave3 0 31 0x33) (withCh 4 on) = .next t ∧ (∃ c, enabled t c = true) ∧
      0x1FC < (withCh 4 on).cfg.waveLockSplit ∧ 0x1FC < (withCh 4 on).cfg.waveRegionEnd :=
  ⟨⟨_, rfl, by decide⟩, ⟨_, rfl, by decide⟩⟩

theorem test_hyp_AdvanceProducesTheWholeSamples :
    1 ≤ live.cfg.cps ∧ 2911 < live.lastSynthesizedCycle + live.cfg.cps ∧
    live.lastSynthesizedCycle + live.cfg.cps ≤ 2912 := by
  decide

theorem test_hyp_AdvanceSlicingIsNotObservable :
    (2912 : Cycle) ≤ 3328 ∧
    ∃ t, exec (.advance 2912) live = .next t ∧ ∃ u, exec (.advance 3328) t = .next u :=
  ⟨by decide, _, rfl, _, rfl⟩

theorem test_hyp_AdvanceKeepsSettings :
    ∃ t, exec (.advance 2912) live = .next t ∧ enabled t 0 = true :=
  ⟨_, rfl, by decide⟩

/-- With and without a due tick; a buffer in filling, completed and handed off, completed and dropped. -/
theorem test_hyp_ProduceSampleFillsOneFrame :
    RingShape live ∧ live.effectDivider ≠ 0 ∧ live.fillPos + 1 < live.cfg.frames ∧
    live.readyAt ((live.prodCursor + 1) % live.cfg.nBuf) = false ∧
    (let s := { live with effectDivider := 0, fillPos := 3, ready := [true, false, true] }
     RingShape s ∧ s.effectDivider = 0 ∧ s.fillPos + 1 = s.cfg.frames ∧
     s.readyAt ((s.prodCursor + 1) % s.cfg.nBuf) = true) :=
  ⟨live_ringShape, by decide, by decide, by decide,
    ⟨by decide, by decide, by decide, by decide, by decide, by decide⟩, by decide, by decide, by decide⟩

theorem test_hyp_PeriodFollowsTheFrequency :
    (0 : Chan).val ≤ 3 ∧ (3 : Chan).val ≤ 3 ∧ (4 : Chan).val = 4 ∧ (5 : Chan).val = 5 ∧
    live.cfg.periodMultWave = 4 ∧ live.cfg.periodMultNoise = 40 := by
  decide

theorem test_hyp_LevelReadsTheTableOrTheNoise :
    live.ram[(4 : WaveChan)].toNat % 16 = (0 : WaveChan).val ∧
    5 ≤ (State.ram { live with ram := #v[5, 5, 5, 5, 5] })[(0 : WaveChan)].toNat % 16 ∧
    live.noiseShift.toNat < 16384 ∧ 16384 ≤ (State.noiseShift { live with noiseShift := 0x4000 }).toNat := by
  decide

theorem test_hyp_ClosedGateFreezesTheChannel :
    live.effectDivider ≠ 0 ∧ enabled live 5 = false ∧ enabled (withCh 1 on) 1 = true ∧
    (withCh 1 on).effectDivider ≠ 0 ∧ ((withCh 1 on).ch 1).envelopeValue = 0 := by
  decide

/-- The timer due exactly at the window's end, and one cycle after it. -/
theorem test_hyp_OpenGateRunsTheTimer :
    (live.cfg.Valid ∧ live.effectDivider ≠ 0 ∧ enabled live 0 = true ∧ (live.ch 0).envelopeValue ≠ 0 ∧
      1 ≤ (live.ch 0).frequencyTimer ∧ (live.ch 0).frequencyTimer ≤ live.cfg.cps) ∧
    (let s := withCh 5 { playing with frequencyTimer := 417 }
     s.cfg.Valid ∧ s.effectDivider ≠ 0 ∧ enabled s 5 = true ∧ (s.ch 5).envelopeValue ≠ 0 ∧
      s.cfg.cps < (s.ch 5).frequencyTimer) := by
  decide

theorem test_hyp_PeriodOfOneSampleMovesOneEntry :
    (0 : Chan) ≠ 5 ∧ 1 ≤ live.cfg.cps ∧ enabled live 0 = true ∧ (live.ch 0).envelopeValue ≠ 0 ∧
    (live.ch 0).frequencyTimer = live.cfg.cps ∧ period live 0 = live.cfg.cps := by
  decide

/-- R148: case (b), the noise channel with a period of 40 and a timer of 40, then 24, 10 ticks inside each; case (c), a
period of 8192, no tick with the timer at 8192 and one with it at 288; case (a), a tick exactly at the window's end. -/
theorem test_hyp_LevelIsReadAfterTheTicksInside :
    (let s := withCh 5 { playing with fql := 0xFF, frequencyTimer := 40 }
     enabled s 5 = true ∧ (s.ch 5).envelopeValue ≠ 0 ∧ (s.ch 5).frequencyTimer = 40 ∧ period s 5 = 40 ∧
      s.cfg.cps ≤ 40 + 10 * 40 ∧ 40 + (10 - 1) * 40 < s.cfg.cps ∧ s.cfg.cps < 40 + 10 * 40 ∧
      s.cfg.cps ≤ 24 + 10 * 40 ∧ 24 + (10 - 1) * 40 < s.cfg.cps) ∧
    (let s := withCh 2 { playing with fql := 0, fqh := 0, frequencyTimer := 8192 }
     enabled s 2 = true ∧ (s.ch 2).envelopeValue ≠ 0 ∧ (s.ch 2).frequencyTimer = 8192 ∧ period s 2 = 8192 ∧
      s.cfg.cps ≤ 8192 + 0 * 8192 ∧ s.cfg.cps ≤ 288 + 1 * 8192 ∧ 288 + (1 - 1) * 8192 < s.cfg.cps) ∧
    (enabled live 0 = true ∧ (live.ch 0).envelopeValue ≠ 0 ∧ (live.ch 0).frequencyTimer = 416 ∧
      period live 0 = 416 ∧ live.cfg.cps = 416 + 0 * 416 ∧ (live.ramAt 0).toNat % 16 < 5) ∧
    ¬ (State.ramAt { live with ram := #v[5, 5, 5, 5, 5] } 0).toNat % 16 < 5 := by
  decide

theorem test_hyp_RawMixFitsItsLane : live.cfg.noiseMax ≤ 63 := by decide

theorem test_hyp_WaveformFollowsTheTable :
    (0 : Chan).val ≤ 3 ∧ live.cfg.Valid ∧ RingShape live ∧ (∀ d, enabled live d = true ↔ d = 0) ∧
    (live.ch 0).envelopeValue = 15 ∧ (live.ch 0).lrv = 0xFF ∧ (live.ch 0).ev1.getLsbD 0 = false ∧
    (live.ch 0).int.getLsbD 5 = false ∧ (live.ramAt 0).toNat % 16 = (0 : WaveChan).val ∧
    (live.ch 0).frequencyTimer = live.cfg.cps ∧ period live 0 = live.cfg.cps ∧ 0 < 1 ∧
    live.fillPos + 1 < live.cfg.frames :=
  ⟨by decide, by decide, live_ringShape, by decide, by decide, by decide, by decide, by decide, by decide,
    by decide, by decide, by decide, by decide⟩

theorem test_hyp_ChannelTickMovesThePhaseOrTheNoise : (4 : Chan) ≠ 5 ∧ (3 : Chan) ≠ 4 := by decide

theorem test_hyp_NoiseNeverGetsStuck :
    (∀ k : Fin 8, live.cfg.noiseTap[k] ≠ live.cfg.noiseFixedBit) ∧ NoiseAlive live ∧ ∃ t, step live = .next t :=
  ⟨by decide, ⟨0, by decide, by decide⟩, _, rfl⟩

theorem test_hyp_EffectsTickFrame : enabled (effectsTick live) 0 = true := by decide

theorem test_hyp_TickCascade :
    live.shutoffDivider ≠ 0 ∧
    State.shutoffDivider { live with shutoffDivider := 0 } = 0 ∧
    State.envelopeDivider { live with shutoffDivider := 0 } ≠ 0 ∧
    State.envelopeDivider { live with shutoffDivider := 0, envelopeDivider := 0 } = 0 := by
  decide

/-- Channel 4 enabled in sweep mode; the candidate is 2048 exactly. -/
def sweeping : State := { withCh 4 { on with ev1 := 0x40 } with swp := 0x18, sweepFrequency := 1024, sweepTimer := 1 }

/-- The candidate is 2048 exactly; the timer stopped, running and expiring. -/
theorem test_hyp_SweepOverflowDisablesChannelFour :
    enabled live 4 = false ∧ enabled sweeping 4 = true ∧ (sweeping.ch 4).ev1.getLsbD 4 = false ∧
    sweeping.swp.getLsbD 3 = true ∧
    2048 ≤ sweeping.sweepFrequency.toNat + sweeping.sweepFrequency.toNat / 2 ^ (sweeping.swp.toNat % 8) ∧
    (sweeping.ch 4).ev1.getLsbD 6 = true ∧ sweeping.swp.toNat / 16 % 8 ≠ 0 ∧ sweeping.sweepTimer ≤ 1 ∧
    1 < State.sweepTimer { sweeping with sweepTimer := 2 } ∧
    (State.swp { sweeping with swp := 0x08 }).toNat / 16 % 8 = 0 := by
  decide

/-- The candidate is 2046; the timer stopped, running and expiring. -/
theorem test_hyp_SweepCommitsAtExpiry :
    (let s := { sweeping with sweepFrequency := 1023 }
     enabled s 4 = true ∧ (s.ch 4).ev1.getLsbD 4 = false ∧ s.swp.getLsbD 3 = true ∧
     2046 = s.sweepFrequency.toNat + s.sweepFrequency.toNat / 2 ^ (s.swp.toNat % 8) ∧
     (s.ch 4).ev1.getLsbD 6 = true ∧ s.swp.toNat / 16 % 8 ≠ 0 ∧ s.sweepTimer ≤ 1 ∧
     1 < State.sweepTimer { s with sweepTimer := 2 } ∧ (State.swp { s with swp := 0x08 }).toNat / 16 % 8 = 0) ∧
    (let s := { sweeping with swp := 0x11 }
     s.swp.getLsbD 3 = false ∧
     512 = s.sweepFrequency.toNat - s.sweepFrequency.toNat / 2 ^ (s.swp.toNat % 8)) := by
  decide

/-- Channel 4 enabled in modulation mode without repeat, at the last entry of the first pass; the sum wraps. -/
def modulating (lock : ModLock) (phase : ModPhase) : State :=
  { withCh 4 { on with ev1 := 0x50, fql := 0xFF, fqh := 0x07 } with
    swp := 0x10, mem := [(0x2FC, 0x7F)], modulationCounter := 31, sweepTimer := 1, modulationLock := lock
    modulationPhase := phase }

theorem test_hyp_ModulationRecomputesAtExpiry :
    ∀ lock ∈ [ModLock.none, .lowByte, .highByte], ∀ phase ∈ [ModPhase.armed, .active],
      (let s := modulating lock phase
       enabled s 4 = true ∧ (s.ch 4).ev1.getLsbD 4 = true ∧ (s.ch 4).ev1.getLsbD 6 = true ∧
       s.swp.toNat / 16 % 8 ≠ 0 ∧ s.sweepTimer ≤ 1 ∧ 1 < State.sweepTimer { s with sweepTimer := 2 } ∧
       (State.swp { s with swp := 0 }).toNat / 16 % 8 = 0 ∧ 2047 = 256 * ((s.ch 4).fqh.toNat % 8) + (s.ch 4).fql.toNat ∧
       ((126 : Nat) : Int) = (((2047 : Nat) : Int) + (s.mod s.modulationCounter).toInt) % 2048 ∧
       s.modulationLock = lock ∧ s.modulationPhase = phase ∧ (s.ch 4).ev1.getLsbD 5 = false) := by
  decide

theorem test_hyp_ShutoffAfterExactlyCounterPlusOneStages :
    (let s := withCh 3 { on with int := 0xA0, shutoffTimer := 31 }
     enabled s 3 = true ∧ (s.ch 3).int.getLsbD 5 = true ∧ (s.ch 3).shutoffTimer.toNat = 31 ∧ 31 ≤ 31) ∧
    enabled s0 3 = false ∧ (live.ch 0).int.getLsbD 5 = false := by
  decide

/-- Idle, counting, and at each of the two ends of either direction. -/
theorem test_hyp_EnvelopeStageSteps :
    enabled s0 0 = false ∧ (live.ch 0).ev1.getLsbD 0 = false ∧
    ∀ ev0 ∈ [(0x08 : Byte), 0x07], ∀ ev1 ∈ [(1 : Byte), 3], ∀ value ∈ [(0 : BitVec 4), 1, 14, 15],
      ∀ timer ∈ [(0 : BitVec 3), 7],
      (let s := withCh 5 { on with ev0 := ev0, ev1 := ev1, envelopeValue := value, envelopeTimer := timer }
       enabled s 5 = true ∧ (s.ch 5).ev1.getLsbD 0 = true ∧ (s.ch 5).envelopeFrozen = false ∧
       ((s.ch 5).envelopeTimer = 0 ∨ (s.ch 5).envelopeTimer ≠ 0)) := by
  decide

theorem test_hyp_DcAccumulatorMovesTowardZero :
    1 ≤ live.cfg.dcBlendDiv ∧ (0 : Int) ≤ 0 ∧ (0 : Int) ≤ 32767 ∧ (-32768 : Int) ≤ 0 := by
  decide

theorem test_hyp_DcConvergesWithin1389Frames :
    (-32768 : Int) ≤ -32768 ∧ (-32768 : Int) ≤ 32767 ∧
    (∀ f ∈ List.replicate 1389 (Frame.mk 32 32), 32 ≤ f.l.toNat ∧ 32 ≤ f.r.toNat) ∧
    1389 ≤ (List.replicate 1389 (Frame.mk 32 32)).length := by
  refine ⟨by decide, by decide, ?_, by rw [List.length_replicate]⟩
  intro f hf
  rw [List.eq_of_mem_replicate hf]
  decide

/-- The steady branch where a lane equals the correction, and the clamping branch (V11.6). -/
theorem test_hyp_DcFrameHasTwoBranches :
    (let f : Frame := ⟨16, 464⟩
     ((f.l.toNat / 16 : Nat) : Int) * 95 = 95 ∧ ((f.r.toNat / 16 : Nat) : Int) * 95 = 2755 ∧
     (24320 : Int) ≠ 0 ∧ 256 * |(95 : Int)| < |24320| + 256 ∧ |(24320 : Int)| ≤ 256 * |95| ∧ (0 : Int) ≤ 95 * 24320 ∧
     (95 : Int) ≤ 95 ∧ (95 : Int) ≤ 2755 ∧
     256 * |(118 : Int)| < |30000| + 256 ∧ |(30000 : Int)| ≤ 256 * |118| ∧ (0 : Int) ≤ 118 * 30000 ∧
     (95 : Int) < 118) := by
  refine ⟨by decide, by decide, ?_⟩
  norm_num

theorem test_hyp_HandOffPublishesOrDrops :
    2 = (live.prodCursor + 1) % live.cfg.nBuf ∧ live.readyAt 2 = false ∧
    State.readyAt { live with ready := [true, true, true] } 2 = true := by
  decide

theorem test_hyp_ProducerOnlyAppendsToTheQueue :
    Inv live ∧ ∃ t, exec (.advance 3328) live = .next t ∧ t.prodCursor = 2 :=
  ⟨live_inv, _, rfl, by decide⟩

/-- A queue with a buffer, an empty queue, and a paused consumer. -/
theorem test_hyp_ConsumeTakesTheOldestBuffer :
    Inv live ∧ live.paused = false ∧ ringQueue live = List.replicate 4 ⟨0, 0⟩ :: [] ∧
    (s0.paused = false ∧ ringQueue s0 = []) ∧ State.paused { live with paused := true } = true :=
  ⟨live_inv, by decide, by decide, by decide, by decide⟩

/-- One buffer queued of a ring of three, at the start of a fill; other parameters than the default ones. -/
theorem test_hyp_BackpressureDropsTheNewest :
    (Inv { live with fillPos := 0 } ∧ queueLength { live with fillPos := 0 } = 1) ∧ small.Valid ∧ 2 < small.nBuf :=
  ⟨⟨⟨by decide, ⟨by decide, by decide, by decide, by decide, by decide, by decide⟩, by unfold RingOwned; decide,
      ⟨by decide, by decide, by decide, by decide, by decide, by decide, by decide, by decide⟩, by decide, by decide,
      by unfold TablesCanonical; decide⟩, by decide⟩, by decide, by decide⟩

theorem test_hyp_MuteAndPauseDoNotDisturbTheProducer :
    (Instr.swp 0 1 ≠ .consume ∧ Instr.swp 0 1 ≠ .pause ∧ Instr.swp 0 1 ≠ .resume ∧
      ∀ b, Instr.swp 0 1 ≠ .setMuted b) ∧ ∃ t, exec (.swp 0 1) live = .next t :=
  ⟨by decide, _, rfl⟩

theorem test_hyp_InvariantHoldsAtPowerOn : small.Valid ∧ small ≠ Params.default := by decide

theorem test_hyp_EveryStepKeepsTheInvariant : Inv live ∧ ∃ t, step live = .next t ∧ t.fillPos = 3 :=
  ⟨live_inv, _, rfl, by decide⟩

theorem test_hyp_EveryStepKeepsTheSampleCount :
    SamplesCounted live 6 ∧ ∃ t, step live = .next t ∧ t.fillPos = 3 :=
  ⟨by unfold SamplesCounted; decide, _, rfl, by decide⟩

theorem s0_silent : Silent s0 :=
  ⟨by decide, by decide, by decide, fun _ h => nomatch h⟩

theorem test_hyp_SilenceWithNoChannelEnabled :
    s0.cfg.dcReset = 0 ∧ Silent s0 ∧ (∀ c now v, Instr.int0 0 0x05 = intOf c now v → v.getLsbD 7 = false) ∧
    ∃ t, exec (.int0 0 0x05) s0 = .next t := by
  refine ⟨by decide, s0_silent, ?_, _, rfl⟩
  intro c now v h
  fin_cases c <;> cases h
  decide

end Sys2Proof.Tests
end

section
/-! PROOFS. What a step does, one equation for each of its four branches, and the statement about steps. -/

namespace Sys2Proof.Machine

/-- A pending operation whose stamp fits is decoded through the window and performed (rules R61, R74; assumption 1). -/
theorem step_pending {s : State} {op : PortOp} {rest : List PortOp} (hv : s.cfg.Valid) (hp : s.pending = op :: rest)
    (hs : op.stamp < 2 ^ s.cfg.cycleBits) :
    step s = exec (decode (op.inWindow s.cfg.windowMask)) { s with pending := rest } := by
  unfold step
  rw [if_pos hv, hp]
  exact if_pos hs

/-- An operation with a stamp of more than `CYCLE_BITS` bits is refused (item U9; assumption 4). -/
theorem step_stampOutOfRange {s : State} {op : PortOp} {rest : List PortOp} (hv : s.cfg.Valid)
    (hp : s.pending = op :: rest) (hs : 2 ^ s.cfg.cycleBits ≤ op.stamp) : step s = .refused .stampOutOfRange := by
  unfold step
  rw [if_pos hv, hp]
  exact if_neg (Nat.not_lt.mpr hs)

/-- With no operation pending a step changes nothing (rule R13; assumption 2). -/
theorem step_idle {s : State} (hv : s.cfg.Valid) (hp : s.pending = []) : step s = .next s := by
  unfold step
  rw [if_pos hv, hp]

/-- A machine whose parameters break their constraints is refused (item U12; assumption 6). -/
theorem step_invalidParameters {s : State} (hv : ¬ s.cfg.Valid) : step s = .refused .invalidParameters :=
  if_neg hv

/-- Settles O5: the four branches of a step are exclusive, the default window drops nothing that decoding looks at,
and any window masks the offset of a transaction and keeps its stamp and value. -/
theorem stepRunsTheDecodedOperation : Obligations.StepRunsTheDecodedOperation := by
  refine ⟨fun s => ⟨fun hv op rest hp => ⟨step_pending hv hp, fun hs hm => ?defaultWindow,
    step_stampOutOfRange hv hp⟩, step_idle, step_invalidParameters⟩, fun t mask => ?window⟩
  case defaultWindow => rw [step_pending hv hp hs, hm, decode_inWindow_default]
  case window => exact ⟨_, rfl, rfl, rfl, offset_inWindow mask t⟩

end Sys2Proof.Machine
end

section
/-! PROOFS. What a WRITE does to the channels, once for all registers, and what it leaves to its catch-up (rules R35,
R104 to R124). -/

namespace Sys2Proof.Machine

/-- What a store in a register other than INT leaves of its channel: INT, so the enable bit, and the two timers that no
register holds (rules R33, R35, R124). -/
structure StoredIn (ch ch' : Channel) : Prop where
  int : ch'.int = ch.int
  timer : ch'.frequencyTimer = ch.frequencyTimer
  envelopeTimer : ch'.envelopeTimer = ch.envelopeTimer

theorem StoredIn.refl (ch : Channel) : StoredIn ch ch := ⟨rfl, rfl, rfl⟩

/-- A store in one channel leaves the others as they were. -/
theorem StoredIn.setCh {s : State} {c : Chan} {ch : Channel} (h : StoredIn (s.ch c) ch) (d : Chan) :
    StoredIn (s.ch d) ((s.setCh c ch).ch d) := by
  rw [ch_setCh]
  split
  · next e => subst e; exact h
  · exact StoredIn.refl _

/-- A store that keeps EV1 keeps it in every channel. -/
theorem ev1_ch_setCh {s : State} {c : Chan} {ch : Channel} (h : ch.ev1 = (s.ch c).ev1) (d : Chan) :
    ((s.setCh c ch).ch d).ev1 = (s.ch d).ev1 := by
  rw [ch_setCh]
  split
  · next e => subst e; exact h
  · rfl

/-- The channels after an FQL write are those after the store (rule R112). -/
theorem writeFql_ch (c d : Chan) (v : Byte) (s : State) :
    (writeFql c v s).ch d = (s.setCh c { s.ch c with fql := v }).ch d := by
  unfold writeFql
  dsimp only
  split <;> rfl

/-- The channels after an FQH write are those after the store (rule R113). -/
theorem writeFqh_ch (c d : Chan) (v : Byte) (s : State) :
    (writeFqh c v s).ch d = (s.setCh c { s.ch c with fqh := v }).ch d := by
  unfold writeFqh
  dsimp only
  split <;> rfl

/-- The channels after an EV1 write are those after the store (rule R115). -/
theorem writeEv1_ch (c d : Chan) (v : Byte) (s : State) :
    (writeEv1 c v s).ch d = (s.setCh c { s.ch c with ev1 := v }).ch d := by
  unfold writeEv1
  dsimp only
  split <;> rfl

/-- A table write changes no channel (rules R104 to R108). -/
@[simp] theorem writeTable_ch (off : Offset) (v : Byte) (s : State) (d : Chan) :
    (writeTable off v s).ch d = s.ch d := by
  rcases writeTable_cases off v s with ⟨-, e⟩ | ⟨-, e⟩
  · rw [e]
  · rw [e]; rfl

/-- What a WRITE does to the channels: a store in a register other than INT or none at all, an INT write, or the stop
action. -/
inductive ChannelWrite (u t : State) : Prop where
  | store (h : ∀ d, StoredIn (u.ch d) (t.ch d))
  | int (c : Chan) (v : Byte) (h : t = writeInt c v u)
  | stop (h : t = stopAll u)

/-- Every WRITE does one of these to the channels. -/
theorem WriteEffect.channelWrite {u t : State} (h : WriteEffect u t) : ChannelWrite u t := by
  cases h with
  | none h => subst h; exact .store fun d => StoredIn.refl _
  | table k i v h => subst h; exact .store fun d => by rw [writeTable_ch]; exact StoredIn.refl _
  | int c v h => exact .int c v h
  | lrv c v h => subst h; exact .store (StoredIn.setCh ⟨rfl, rfl, rfl⟩)
  | fql c v h => subst h; exact .store fun d => by rw [writeFql_ch]; apply StoredIn.setCh; exact ⟨rfl, rfl, rfl⟩
  | fqh c v h => subst h; exact .store fun d => by rw [writeFqh_ch]; apply StoredIn.setCh; exact ⟨rfl, rfl, rfl⟩
  | ev0 c v h => subst h; exact .store (StoredIn.setCh ⟨rfl, rfl, rfl⟩)
  | ev1 c v h => subst h; exact .store fun d => by rw [writeEv1_ch]; apply StoredIn.setCh; exact ⟨rfl, rfl, rfl⟩
  | ram c v h => subst h; exact .store fun d => StoredIn.refl _
  | swp v h => subst h; exact .store fun d => StoredIn.refl _
  | stop h => exact .stop h

/-- No WRITE changes an envelope timer but by its catch-up (rule R35). -/
theorem ChannelWrite.envelopeTimer {u t : State} (h : ChannelWrite u t) (d : Chan) :
    (t.ch d).envelopeTimer = (u.ch d).envelopeTimer := by
  cases h with
  | store h => exact (h d).envelopeTimer
  | int c v h =>
    subst h
    by_cases hc : c = d
    · subst hc; rw [writeInt_ch]
    · rw [writeInt_ch_ne hc]
  | stop h => subst h; rw [stopAll_ch]; rfl

/-- The extra resets of an INT write touch channel 4's sweep, or the LFSR, alone (rules R121, R122). -/
theorem restartExtra_cases (c : Chan) (s : State) :
    (c = chSweep ∧ restartExtra c s = restartSweep s) ∨
    (c = chNoise ∧ restartExtra c s = { s with noiseShift := 0 }) ∨
    (c ≠ chSweep ∧ c ≠ chNoise ∧ restartExtra c s = s) := by
  unfold restartExtra
  split
  · next h => exact .inl ⟨h, rfl⟩
  · next h =>
    split
    · next h' => exact .inr (.inl ⟨h', rfl⟩)
    · next h' => exact .inr (.inr ⟨h, h', rfl⟩)

@[simp] theorem writeFql_mem (c : Chan) (v : Byte) (s : State) : (writeFql c v s).mem = s.mem := by
  unfold writeFql; dsimp only; split <;> rfl
@[simp] theorem writeFql_sweepTimer (c : Chan) (v : Byte) (s : State) : (writeFql c v s).sweepTimer = s.sweepTimer := by
  unfold writeFql; dsimp only; split <;> rfl
@[simp] theorem writeFql_noiseShift (c : Chan) (v : Byte) (s : State) : (writeFql c v s).noiseShift = s.noiseShift := by
  unfold writeFql; dsimp only; split <;> rfl
@[simp] theorem writeFqh_mem (c : Chan) (v : Byte) (s : State) : (writeFqh c v s).mem = s.mem := by
  unfold writeFqh; dsimp only; split <;> rfl
@[simp] theorem writeFqh_sweepTimer (c : Chan) (v : Byte) (s : State) : (writeFqh c v s).sweepTimer = s.sweepTimer := by
  unfold writeFqh; dsimp only; split <;> rfl
@[simp] theorem writeFqh_noiseShift (c : Chan) (v : Byte) (s : State) : (writeFqh c v s).noiseShift = s.noiseShift := by
  unfold writeFqh; dsimp only; split <;> rfl
@[simp] theorem writeEv1_mem (c : Chan) (v : Byte) (s : State) : (writeEv1 c v s).mem = s.mem := by
  unfold writeEv1; dsimp only; split <;> rfl
@[simp] theorem writeEv1_sweepTimer (c : Chan) (v : Byte) (s : State) : (writeEv1 c v s).sweepTimer = s.sweepTimer := by
  unfold writeEv1; dsimp only; split <;> rfl

@[simp] theorem restartExtra_mem (c : Chan) (s : State) : (restartExtra c s).mem = s.mem := by
  rcases restartExtra_cases c s with ⟨-, e⟩ | ⟨-, e⟩ | ⟨-, -, e⟩ <;> simp [e, restartSweep]

/-- An INT write changes no table (rule R124). -/
@[simp] theorem writeInt_mem (c : Chan) (v : Byte) (s : State) : (writeInt c v s).mem = s.mem := by
  simp [writeInt]

/-- An INT write leaves the sweep timer, or reloads it with the sweep interval (rules R39, R121). -/
theorem writeInt_sweepTimer (c : Chan) (v : Byte) (s : State) :
    (writeInt c v s).sweepTimer = s.sweepTimer ∨ (writeInt c v s).sweepTimer = sweepInterval s.cfg s.swp := by
  rcases restartExtra_cases c (s.setCh c { s.ch c with int := v }) with ⟨-, e⟩ | ⟨-, e⟩ | ⟨-, -, e⟩
  · exact .inr (by simp [writeInt, e, restartSweep])
  · exact .inl (by simp [writeInt, e])
  · exact .inl (by simp [writeInt, e])

/-- An INT write to another channel than the noise channel leaves the LFSR (rule R122). -/
theorem writeInt_noiseShift_ne {c : Chan} (hc : c ≠ chNoise) (v : Byte) (s : State) :
    (writeInt c v s).noiseShift = s.noiseShift := by
  rcases restartExtra_cases c (s.setCh c { s.ch c with int := v }) with ⟨-, e⟩ | ⟨h, -⟩ | ⟨-, -, e⟩
  · simp [writeInt, e, restartSweep]
  · exact absurd h hc
  · simp [writeInt, e]

/-- A WRITE leaves the time base, the dividers, the DC accumulator, the ring and the control flags to its catch-up; the
channels' part of the progress is put aside here (rule R124). -/
theorem WriteEffect.progress_apart_channels {u t : State} (h : WriteEffect u t) :
    progress { t with chan := u.chan } = progress u := by
  cases h with
  | none h => subst h; rfl
  | table k i v h =>
    subst h
    rcases writeTable_cases (tableOffset k.val i) v u with ⟨-, e⟩ | ⟨-, e⟩
    · rw [e]
    · rw [e]; rfl
  | int c v h =>
    subst h
    unfold writeInt
    rcases restartExtra_cases c (u.setCh c { u.ch c with int := v }) with ⟨-, e⟩ | ⟨-, e⟩ | ⟨-, -, e⟩ <;>
      rw [e] <;> simp [progress, restartSweep]
  | lrv c v h => subst h; rfl
  | fql c v h => subst h; unfold writeFql; dsimp only; split <;> rfl
  | fqh c v h => subst h; unfold writeFqh; dsimp only; split <;> rfl
  | ev0 c v h => subst h; rfl
  | ev1 c v h => subst h; unfold writeEv1; dsimp only; split <;> rfl
  | ram c v h => subst h; rfl
  | swp v h => subst h; rfl
  | stop h => subst h; rfl

/-- What a WRITE changes of the progress, it changes by its catch-up alone (rules R35, R124). -/
theorem WriteEffect.progress_eq {u t : State} (h : WriteEffect u t) : progress t = progress u := by
  have hmap : t.chan.map Channel.envelopeTimer = u.chan.map Channel.envelopeTimer := by
    apply Vector.ext
    intro i hi
    rw [Vector.getElem_map, Vector.getElem_map]
    exact h.channelWrite.envelopeTimer ⟨i, hi⟩
  calc progress t
      = { progress { t with chan := u.chan } with envelopeTimers := t.chan.map Channel.envelopeTimer } := rfl
    _ = progress u := by rw [h.progress_apart_channels, hmap]; rfl

/-- A WRITE clears the LFSR, or leaves both it and the byte that selects its tap (rules R43, R115, R122). -/
theorem WriteEffect.noise {u t : State} (h : WriteEffect u t) :
    t.noiseShift = 0 ∨ (t.noiseShift = u.noiseShift ∧ (t.ch chNoise).ev1 = (u.ch chNoise).ev1) := by
  cases h with
  | none h => subst h; exact .inr ⟨rfl, rfl⟩
  | table k i v h =>
    subst h
    rcases writeTable_cases (tableOffset k.val i) v u with ⟨-, e⟩ | ⟨-, e⟩ <;> (rw [e]; exact .inr ⟨rfl, rfl⟩)
  | int c v h =>
    subst h
    by_cases hc : c = chNoise
    · subst hc; exact .inl rfl
    · exact .inr ⟨writeInt_noiseShift_ne hc v u, by rw [writeInt_ch_ne hc]⟩
  | lrv c v h => subst h; exact .inr ⟨rfl, by apply ev1_ch_setCh; rfl⟩
  | fql c v h =>
    subst h
    exact .inr ⟨writeFql_noiseShift c v u, by rw [writeFql_ch]; apply ev1_ch_setCh; rfl⟩
  | fqh c v h =>
    subst h
    exact .inr ⟨writeFqh_noiseShift c v u, by rw [writeFqh_ch]; apply ev1_ch_setCh; rfl⟩
  | ev0 c v h => subst h; exact .inr ⟨rfl, by apply ev1_ch_setCh; rfl⟩
  | ev1 c v h =>
    subst h
    by_cases hc : c = chNoise
    · subst hc; exact .inl rfl
    · refine .inr ⟨?_, by rw [writeEv1_ch, ch_setCh_ne _ hc]⟩
      unfold writeEv1
      rw [if_neg hc]
      rfl
  | ram c v h => subst h; exact .inr ⟨rfl, rfl⟩
  | swp v h => subst h; exact .inr ⟨rfl, rfl⟩
  | stop h => subst h; exact .inr ⟨rfl, by rw [stopAll_ch]; rfl⟩

/-- A WRITE leaves the sweep timer, or reloads it with the sweep interval (rules R39, R121). -/
theorem WriteEffect.sweepTimer {u t : State} (h : WriteEffect u t) :
    t.sweepTimer = u.sweepTimer ∨ t.sweepTimer = sweepInterval u.cfg u.swp := by
  cases h with
  | none h => subst h; exact .inl rfl
  | table k i v h =>
    subst h
    rcases writeTable_cases (tableOffset k.val i) v u with ⟨-, e⟩ | ⟨-, e⟩ <;> (left; rw [e])
  | int c v h => subst h; exact writeInt_sweepTimer c v u
  | lrv c v h => subst h; exact .inl rfl
  | fql c v h => subst h; exact .inl (writeFql_sweepTimer c v u)
  | fqh c v h => subst h; exact .inl (writeFqh_sweepTimer c v u)
  | ev0 c v h => subst h; exact .inl rfl
  | ev1 c v h => subst h; exact .inl (writeEv1_sweepTimer c v u)
  | ram c v h => subst h; exact .inl rfl
  | swp v h => subst h; exact .inl rfl
  | stop h => subst h; exact .inl rfl

/-- A WRITE leaves the tables, or stores in one of their entries (rules R104 to R108, R124). -/
theorem WriteEffect.mem {u t : State} (h : WriteEffect u t) :
    t.mem = u.mem ∨ ∃ (k : Fin 6) (i : Entry) (v : Byte), t.mem = u.mem.write (tableOffset k.val i).toNat v := by
  cases h with
  | none h => subst h; exact .inl rfl
  | table k i v h =>
    subst h
    rcases writeTable_cases (tableOffset k.val i) v u with ⟨-, e⟩ | ⟨-, e⟩
    · exact .inl (by rw [e])
    · exact .inr ⟨k, i, v, by rw [e]⟩
  | int c v h => subst h; exact .inl (writeInt_mem c v u)
  | lrv c v h => subst h; exact .inl rfl
  | fql c v h => subst h; exact .inl (writeFql_mem c v u)
  | fqh c v h => subst h; exact .inl (writeFqh_mem c v u)
  | ev0 c v h => subst h; exact .inl rfl
  | ev1 c v h => subst h; exact .inl (writeEv1_mem c v u)
  | ram c v h => subst h; exact .inl rfl
  | swp v h => subst h; exact .inl rfl
  | stop h => subst h; exact .inl rfl

/-- A catch-up is an ADVANCE, or nothing at or above the threshold (rule R102). -/
theorem catchUp_cases (off : Offset) (now : Cycle) (s : State) :
    catchUp off now s = advance now s ∨ catchUp off now s = s := by
  unfold catchUp
  split
  · exact .inl rfl
  · exact .inr rfl

/-- No instruction changes the parameters (assumption 3). -/
theorem InstrEffect.cfg_eq {now : Cycle} {s t : State} (h : InstrEffect now s t) : t.cfg = s.cfg := by
  cases h with
  | idle h => rw [h]
  | write off w => exact (congrArg Progress.cfg w.progress_eq).trans (catchUp_cfg s off now)
  | advance h => rw [h]; exact advance_cfg s now
  | reset h => rw [h]; rfl
  | muted b h => rw [h]
  | paused b h => rw [h]
  | consume h => rcases consume_cases s with ⟨-, e⟩ | ⟨-, -, e⟩ | ⟨-, -, e⟩ <;> rw [h, e]

end Sys2Proof.Machine
end

section
/-! PROOFS. One sample, channel by channel and counter by counter: the tick that heads it, the mix, and the state in
which its frame is stored (rules R142, R161, R170, R191). -/

namespace Sys2Proof.Machine

/-- A tick, due or not, does to each channel what an effects tick can do (rules R171, R191). -/
theorem tickIfDue_ticked (s : State) (c : Chan) : TickedFrom (s.ch c) ((tickIfDue s).ch c) := by
  unfold tickIfDue
  split
  · exact effectsTick_ticked s c
  · exact TickedFrom.refl _

/-- The effects divider a sample goes on with: reloaded when it was 0 (rules R45, R170). -/
theorem tickIfDue_effectDivider (s : State) :
    (tickIfDue s).effectDivider = if s.effectDivider = 0 then tickSamples else s.effectDivider := by
  unfold tickIfDue
  split <;> rfl

/-- A tick counts the shutoff divider down or reloads it (rules R46, R170). -/
theorem tickIfDue_shutoffDivider_le {s : State} (h : s.shutoffDivider ≤ shutoffReload) :
    (tickIfDue s).shutoffDivider ≤ shutoffReload := by
  unfold tickIfDue
  split
  · unfold effectsTick shutoffCascade
    split
    · simp only [sweepModStage_shutoffDivider]; omega
    · simp
  · exact h

/-- A tick leaves the envelope divider, counts it down or reloads it (rules R47, R170). -/
theorem tickIfDue_envelopeDivider_le {s : State} (h : s.envelopeDivider ≤ envelopeReload) :
    (tickIfDue s).envelopeDivider ≤ envelopeReload := by
  unfold tickIfDue
  split
  · unfold effectsTick shutoffCascade
    split
    · simpa using h
    · unfold envelopeCascade
      split
      · simp only [shutoffStage_envelopeDivider, sweepModStage_envelopeDivider]; omega
      · simp
  · exact h

/-- A tick leaves the sweep timer within its range (rules R39, R177). -/
theorem tickIfDue_sweepTimer_le {s : State} (h : s.sweepTimer ≤ 7 * max s.cfg.sweepClk0 s.cfg.sweepClk1) :
    (tickIfDue s).sweepTimer ≤ 7 * max s.cfg.sweepClk0 s.cfg.sweepClk1 := by
  unfold tickIfDue
  split
  · simpa [effectsTick] using sweepModStage_sweepTimer_le s h
  · exact h

/-- A property of states that each channel's part of a sample keeps is kept by the mix (rule R142). -/
theorem mixChannels_keeps {P : State → Prop} (h : ∀ m c, P m.st → P (stepChannel m c).st) {s : State} (hs : P s) :
    P (mixChannels s).st := by
  rw [mixChannels_eq]
  exact h _ 5 (h _ 4 (h _ 3 (h _ 2 (h _ 1 (h ⟨0, 0, s⟩ 0 hs)))))

/-- A sample whose frame is stored and whose buffer is not yet looked at (rule R142, steps 1 to 4). -/
def sampleStored (s : State) : State :=
  { storeFrame ⟨zext16 (mixChannels (tickIfDue s)).accL, zext16 (mixChannels (tickIfDue s)).accR⟩
      (mixChannels (tickIfDue s)).st with
    fillPos := s.fillPos + 1
    effectDivider := (tickIfDue s).effectDivider - 1 }

/-- A sample is the storing of its frame and the completion of the buffer (rule R142). -/
theorem produceSample_eq (s : State) : produceSample s = completeBuffer (sampleStored s) := by
  simp [produceSample, sampleStored]

@[simp] theorem sampleStored_cfg (s : State) : (sampleStored s).cfg = s.cfg := by simp [sampleStored]
@[simp] theorem sampleStored_ready (s : State) : (sampleStored s).ready = s.ready := by simp [sampleStored]
@[simp] theorem sampleStored_prodCursor (s : State) : (sampleStored s).prodCursor = s.prodCursor := by
  simp [sampleStored]
@[simp] theorem sampleStored_fillPos (s : State) : (sampleStored s).fillPos = s.fillPos + 1 := rfl
@[simp] theorem sampleStored_dcOffset (s : State) : (sampleStored s).dcOffset = s.dcOffset := by simp [sampleStored]

/-- The frame is stored in the producer's buffer at the fill position (rule R158). -/
theorem sampleStored_buf (s : State) :
    ∃ f, (sampleStored s).buf = s.buf.set s.prodCursor ((s.bufAt s.prodCursor).set s.fillPos f) := by
  refine ⟨⟨zext16 (mixChannels (tickIfDue s)).accL, zext16 (mixChannels (tickIfDue s)).accR⟩, ?_⟩
  simp [sampleStored, storeFrame, State.bufAt]

/-- The stored frame changes no buffer's length (rule R158). -/
theorem sampleStored_bufAt_length (s : State) (k : Nat) :
    ((sampleStored s).bufAt k).length = (s.bufAt k).length := by
  have hmix : (mixChannels (tickIfDue s)).st.bufAt k = s.bufAt k := by simp [State.bufAt]
  rw [← hmix]
  show ((storeFrame _ (mixChannels (tickIfDue s)).st).bufAt k).length = _
  rw [bufAt_storeFrame]
  split
  · exact List.length_set
  · rfl

/-- The channels after a sample are those after the mix (rules R142, R209). -/
theorem produceSample_ch (s : State) (c : Chan) : (produceSample s).ch c = (mixChannels (tickIfDue s)).st.ch c := by
  rw [produceSample_eq]
  exact ch_congr (by simp [sampleStored]) c

/-- A sample writes no register of a channel but enable bits (rule R161). -/
theorem produceSample_channelRegs (s : State) (c : Chan) :
    channelRegs ((produceSample s).ch c) = channelRegs (s.ch c) := by
  obtain ⟨n, h⟩ := mixChannels_ch (tickIfDue s) c
  rw [produceSample_ch, h]
  exact (tickIfDue_ticked s c).regs

/-- A sample enables no channel (rules R161, R171). -/
theorem produceSample_enabled {s : State} {c : Chan} (h : enabled (produceSample s) c = true) :
    enabled s c = true := by
  obtain ⟨n, e⟩ := mixChannels_ch (tickIfDue s) c
  rw [enabled, produceSample_ch, e] at h
  exact (tickIfDue_ticked s c).enable h

@[simp] theorem produceSample_noiseShift (s : State) :
    (produceSample s).noiseShift = (mixChannels (tickIfDue s)).st.noiseShift := by
  simp [produceSample_eq, sampleStored]

@[simp] theorem produceSample_sweepTimer (s : State) : (produceSample s).sweepTimer = (tickIfDue s).sweepTimer := by
  simp [produceSample_eq, sampleStored]

@[simp] theorem produceSample_shutoffDivider (s : State) :
    (produceSample s).shutoffDivider = (tickIfDue s).shutoffDivider := by
  simp [produceSample_eq, sampleStored]

@[simp] theorem produceSample_envelopeDivider (s : State) :
    (produceSample s).envelopeDivider = (tickIfDue s).envelopeDivider := by
  simp [produceSample_eq, sampleStored]

/-- The effects divider after a sample: counted down, from its reload when it was 0 (rules R45, R170). -/
theorem produceSample_effectDivider (s : State) :
    (produceSample s).effectDivider = (if s.effectDivider = 0 then tickSamples else s.effectDivider) - 1 := by
  simp [produceSample_eq, sampleStored, tickIfDue_effectDivider]

/-- The fill position after a sample: the next one, or the start of a buffer (rules R51, R142). -/
theorem produceSample_fillPos (s : State) :
    (produceSample s).fillPos = if s.fillPos + 1 = s.cfg.frames then 0 else s.fillPos + 1 := by
  rw [produceSample_eq]
  rcases completeBuffer_cases (sampleStored s) with ⟨h, e⟩ | ⟨h, e⟩
  · rw [sampleStored_fillPos, sampleStored_cfg] at h
    rw [e, if_neg h, sampleStored_fillPos]
  · rw [sampleStored_fillPos, sampleStored_cfg] at h
    rw [e, if_pos h]

/-- The frames of a buffer move the accumulator toward 0 or leave it, never across (rules R200, R206). -/
theorem postFrames_between {d : Nat} (hd : 1 ≤ d) (dc : Int) (fs : List Frame) :
    min 0 dc ≤ (postFrames d dc fs).2 ∧ (postFrames d dc fs).2 ≤ max 0 dc := by
  induction fs generalizing dc with
  | nil => exact ⟨Int.min_le_right _ _, Int.le_max_right _ _⟩
  | cons f fs ih =>
    rw [postFrames_cons_snd]
    obtain ⟨hlo, hhi⟩ := ih (postFrame d dc f).2
    rcases Int.le_total 0 dc with h | h
    · have := postFrame_nonneg hd h f
      omega
    · have := postFrame_nonpos hd h f
      omega

/-- A sample moves the accumulator toward 0 or leaves it, never across (rules R48, R206). -/
theorem produceSample_dcOffset_between {s : State} (hd : 1 ≤ s.cfg.dcBlendDiv) :
    min 0 s.dcOffset ≤ (produceSample s).dcOffset ∧ (produceSample s).dcOffset ≤ max 0 s.dcOffset := by
  rw [produceSample_eq]
  rcases completeBuffer_cases (sampleStored s) with ⟨-, e⟩ | ⟨-, e⟩
  · rw [e, sampleStored_dcOffset]
    exact ⟨Int.min_le_right _ _, Int.le_max_right _ _⟩
  · have h := postFrames_between (d := (sampleStored s).cfg.dcBlendDiv) (by simpa using hd) (sampleStored s).dcOffset
      ((sampleStored s).bufAt (sampleStored s).prodCursor)
    rw [sampleStored_dcOffset] at h
    rw [e]
    simpa [postProcess] using h

end Sys2Proof.Machine
end

section
/-! PROOFS. The ring as a queue: how far an index lies after the consumer's cursor, and what a sample and a CONSUME do
to the ownership and to the queue (rules R50 to R52, R57, R215 to R227). -/

namespace Sys2Proof.Machine

/-- How far the index `k` lies after the index `a` in a ring of `n` buffers. -/
def ringDistance (n a k : Nat) : Nat := (k + n - a) % n

/-- The queue's length is the producer's distance from the consumer. -/
theorem queueLength_eq (s : State) : queueLength s = ringDistance s.cfg.nBuf s.consCursor s.prodCursor := rfl

/-- The ready buffers are those nearer to the consumer than the producer is (rule R57 item d). -/
theorem ringOwned_iff (s : State) :
    RingOwned s ↔ ∀ k, k < s.cfg.nBuf →
      (s.readyAt k = true ↔ ringDistance s.cfg.nBuf s.consCursor k < queueLength s) := Iff.rfl

theorem ringDistance_eq {n a k : Nat} (ha : a < n) (hk : k < n) :
    ringDistance n a k = if a ≤ k then k - a else k + n - a := by
  unfold ringDistance
  split
  · rw [show k + n - a = (k - a) + n by omega, Nat.add_mod_right, Nat.mod_eq_of_lt (by omega)]
  · exact Nat.mod_eq_of_lt (by omega)

/-- The next index in a ring, without a remainder. -/
theorem succ_mod_ring {n k : Nat} (hk : k < n) : (k + 1) % n = if k + 1 = n then 0 else k + 1 := by
  split
  · next h => rw [h, Nat.mod_self]
  · exact Nat.mod_eq_of_lt (by omega)

/-- Indices at the same distance are the same. -/
theorem ringDistance_inj {n a k k' : Nat} (ha : a < n) (hk : k < n) (hk' : k' < n)
    (h : ringDistance n a k = ringDistance n a k') : k = k' := by
  rw [ringDistance_eq ha hk, ringDistance_eq ha hk'] at h
  split at h <;> split at h <;> omega

/-- The next index lies one further, or is where the distances are counted from. -/
theorem ringDistance_succ {n a k : Nat} (ha : a < n) (hk : k < n) :
    ringDistance n a ((k + 1) % n) = if (k + 1) % n = a then 0 else ringDistance n a k + 1 := by
  have hm := succ_mod_ring hk
  rw [ringDistance_eq ha (Nat.mod_lt _ (by omega)), ringDistance_eq ha hk]
  grind

/-- Seen from the next index every other index lies one nearer. -/
theorem ringDistance_from_succ {n a k : Nat} (ha : a < n) (hk : k < n) :
    ringDistance n ((a + 1) % n) k = if k = a then n - 1 else ringDistance n a k - 1 := by
  have hm := succ_mod_ring ha
  rw [ringDistance_eq (Nat.mod_lt _ (by omega)) hk, ringDistance_eq ha hk]
  grind

/-- The index at a distance. -/
theorem ringDistance_add {n a j : Nat} (ha : a < n) (hj : j < n) : ringDistance n a ((a + j) % n) = j := by
  have hm : (a + j) % n = if a + j < n then a + j else a + j - n := by
    split
    · next h => exact Nat.mod_eq_of_lt h
    · rw [Nat.mod_eq_sub_mod (by omega), Nat.mod_eq_of_lt (by omega)]
  rw [ringDistance_eq ha (Nat.mod_lt _ (by omega)), hm]
  grind

/-- What a sample does to the ring: the producer's buffer gets new contents of its length, the fill moves on, and the
hand-off, where there is one that publishes, moves the producer to a buffer that was not ready (rules R142, R158, R215,
R216). -/
structure SampledRing (s t : State) : Prop where
  cfg : t.cfg = s.cfg
  cons : t.consCursor = s.consCursor
  buf : ∃ b, b.length = (s.bufAt s.prodCursor).length ∧ t.buf = s.buf.set s.prodCursor b
  fill : t.fillPos = if s.fillPos + 1 = s.cfg.frames then 0 else s.fillPos + 1
  handOff :
    (t.ready = s.ready ∧ t.prodCursor = s.prodCursor) ∨
    (s.readyAt (nextIndex s s.prodCursor) = false ∧ t.ready = s.ready.set s.prodCursor true ∧
      t.prodCursor = nextIndex s s.prodCursor)

/-- Every sample does this to the ring. -/
theorem produceSample_ring (s : State) : SampledRing s (produceSample s) := by
  obtain ⟨f, hf⟩ := sampleStored_buf s
  have hfill := produceSample_fillPos s
  rw [produceSample_eq] at hfill ⊢
  refine ⟨by simp, by simp [sampleStored], ?_, hfill, ?_⟩
  case refine_1 =>
    rcases completeBuffer_cases (sampleStored s) with ⟨-, e⟩ | ⟨-, e⟩
    · exact ⟨_, List.length_set, by rw [e, hf]⟩
    · rw [e]
      refine ⟨(postFrames s.cfg.dcBlendDiv s.dcOffset ((sampleStored s).bufAt s.prodCursor)).1, ?_, ?_⟩
      · rw [postFrames_length, sampleStored_bufAt_length]
      · simp [postProcess, hf]
  case refine_2 =>
    rcases completeBuffer_cases (sampleStored s) with ⟨-, e⟩ | ⟨-, e⟩
    · rw [e]; exact .inl ⟨by simp, by simp⟩
    · rw [e]
      rcases handOff_cases (postProcess (sampleStored s)) with ⟨-, h⟩ | ⟨hr, h⟩
      · rw [h]; exact .inl ⟨by simp, by simp⟩
      · rw [h]
        exact .inr ⟨by simpa [State.readyAt, nextIndex] using hr, by simp, by simp [nextIndex]⟩

/-- A sample keeps the ring's shape (rules R49 to R52). -/
theorem RingShape.sampled {s t : State} (hs : RingShape s) (h : SampledRing s t) : RingShape t := by
  obtain ⟨b, hlen, hb⟩ := h.buf
  have hat : s.bufAt s.prodCursor ∈ s.buf := by
    have hp : s.prodCursor < s.buf.length := by rw [hs.bufs]; exact hs.prod
    simp [State.bufAt, hp]
  have hfill := h.fill
  have hpos := hs.fill
  refine ⟨?_, ?_, ?_, ?_, ?_, ?_⟩
  · rw [hb, List.length_set, hs.bufs, h.cfg]
  · intro x hx
    rw [hb] at hx
    rw [h.cfg]
    rcases List.mem_or_eq_of_mem_set hx with hx | rfl
    · exact hs.frames x hx
    · rw [hlen]; exact hs.frames _ hat
  · rcases h.handOff with ⟨hr, -⟩ | ⟨-, hr, -⟩ <;> simp [hr, h.cfg, hs.flags]
  · rw [h.cfg]
    rcases h.handOff with ⟨-, hp⟩ | ⟨-, -, hp⟩
    · rw [hp]; exact hs.prod
    · rw [hp]; exact Nat.mod_lt _ (Nat.zero_lt_of_lt hs.prod)
  · rw [h.cons, h.cfg]; exact hs.cons
  · rw [h.cfg]
    split at hfill <;> omega

/-- A buffer that is not ready, and follows the producer's, lies one further from the consumer than the producer's: the
queue is not full (rules R57, R216). -/
theorem RingOwned.room {s : State} (ho : RingOwned s) (hs : RingShape s) (hn : 2 ≤ s.cfg.nBuf)
    (h : s.readyAt (nextIndex s s.prodCursor) = false) :
    ringDistance s.cfg.nBuf s.consCursor (nextIndex s s.prodCursor) = queueLength s + 1 := by
  have hnext : nextIndex s s.prodCursor < s.cfg.nBuf := Nat.mod_lt _ (by omega)
  have hfar : ¬ ringDistance s.cfg.nBuf s.consCursor (nextIndex s s.prodCursor) < queueLength s := by
    rw [← (ringOwned_iff s).mp ho _ hnext, h]
    exact Bool.false_ne_true
  have hd : ringDistance s.cfg.nBuf s.consCursor (nextIndex s s.prodCursor) = _ :=
    ringDistance_succ hs.cons hs.prod
  by_cases hc : nextIndex s s.prodCursor = s.consCursor
  · exfalso
    have hself : ringDistance s.cfg.nBuf s.consCursor s.consCursor = 0 := by
      rw [ringDistance_eq hs.cons hs.cons, if_pos (Nat.le_refl _), Nat.sub_self]
    have hempty : ringDistance s.cfg.nBuf s.consCursor s.prodCursor = 0 := by
      rw [hc, hself, queueLength_eq] at hfar
      omega
    have hprod : s.prodCursor = s.consCursor := ringDistance_inj hs.cons hs.prod hs.cons (by rw [hempty, hself])
    have hm := succ_mod_ring hs.cons
    rw [nextIndex, hprod, hm] at hc
    split at hc <;> omega
  · exact hd.trans (if_neg hc)

/-- A sample leaves the queue's length, or makes it one longer by publishing the producer's buffer. -/
theorem SampledRing.queueLength_cases {s t : State} (h : SampledRing s t) (ho : RingOwned s) (hs : RingShape s)
    (hn : 2 ≤ s.cfg.nBuf) :
    (t.ready = s.ready ∧ t.prodCursor = s.prodCursor ∧ queueLength t = queueLength s) ∨
    (t.ready = s.ready.set s.prodCursor true ∧ queueLength t = queueLength s + 1) := by
  rcases h.handOff with ⟨hr, hp⟩ | ⟨hnr, hr, hp⟩
  · exact .inl ⟨hr, hp, by simp [queueLength, h.cfg, h.cons, hp]⟩
  · exact .inr ⟨hr, by rw [queueLength_eq, h.cfg, h.cons, hp, ho.room hs hn hnr]⟩

/-- A sample keeps the ownership of the ring: the ready buffers are those of the queue (rule R57 item d). -/
theorem RingOwned.sampled {s t : State} (ho : RingOwned s) (hs : RingShape s) (hn : 2 ≤ s.cfg.nBuf)
    (h : SampledRing s t) : RingOwned t := by
  rw [ringOwned_iff] at ho ⊢
  rw [h.cfg, h.cons]
  intro k hk
  rcases h.queueLength_cases ho hs hn with ⟨hr, -, hq⟩ | ⟨hr, hq⟩
  · rw [hq, ← ho k hk, State.readyAt, State.readyAt, hr]
  · have hready : t.readyAt k = (setReady s.prodCursor true s).readyAt k := by simp [State.readyAt, hr]
    rw [hready, readyAt_setReady, hq, hs.flags]
    by_cases hp : s.prodCursor = k
    · rw [if_pos ⟨hp, hk⟩, queueLength_eq, hp]
      exact ⟨fun _ => Nat.lt_succ_self _, fun _ => rfl⟩
    · rw [if_neg (fun e => hp e.1), ho k hk]
      have hne : ringDistance s.cfg.nBuf s.consCursor k ≠ queueLength s := fun e =>
        hp (ringDistance_inj hs.cons hs.prod hk e.symm)
      omega

/-- The producer's buffer is not in the queue, so what a sample writes there changes no queued buffer (rules R50,
R217). -/
theorem SampledRing.bufAt_queued {s t : State} (h : SampledRing s t) (hs : RingShape s) {j : Nat}
    (hj : j < queueLength s) :
    t.bufAt ((s.consCursor + j) % s.cfg.nBuf) = s.bufAt ((s.consCursor + j) % s.cfg.nBuf) := by
  obtain ⟨b, -, hb⟩ := h.buf
  have hlt := queueLength_lt (Nat.zero_lt_of_lt hs.prod)
  have hne : s.prodCursor ≠ (s.consCursor + j) % s.cfg.nBuf := by
    intro e
    have hq := queueLength_eq s
    rw [e, ringDistance_add hs.cons (by omega)] at hq
    omega
  simp [State.bufAt, hb, hne]

/-- A sample only appends to the queue (rules R217, R227). -/
theorem SampledRing.ringQueue {s t : State} (h : SampledRing s t) (ho : RingOwned s) (hs : RingShape s)
    (hn : 2 ≤ s.cfg.nBuf) : ∃ new, ringQueue t = ringQueue s ++ new := by
  have hold : (List.range (queueLength s)).map (fun j => t.bufAt ((t.consCursor + j) % t.cfg.nBuf)) =
      Machine.ringQueue s :=
    List.map_congr_left fun j hj => by
      rw [h.cfg, h.cons]
      exact h.bufAt_queued hs (List.mem_range.mp hj)
  rcases h.queueLength_cases ho hs hn with ⟨-, -, hq⟩ | ⟨-, hq⟩
  · exact ⟨[], by rw [List.append_nil, ← hold, ← hq]; rfl⟩
  · refine ⟨[t.bufAt ((t.consCursor + queueLength s) % t.cfg.nBuf)], ?_⟩
    rw [← hold, Machine.ringQueue, hq, List.range_succ, List.map_append]
    rfl

/-- CONSUME keeps the ring's shape (rules R52, R222). -/
theorem RingShape.consume {s : State} (hs : RingShape s) : RingShape (consume s) := by
  rcases consume_cases s with ⟨-, e⟩ | ⟨-, -, e⟩ | ⟨-, -, e⟩
  · rw [e]; exact ⟨hs.bufs, hs.frames, hs.flags, hs.prod, hs.cons, hs.fill⟩
  · rw [e]; exact ⟨hs.bufs, hs.frames, hs.flags, hs.prod, hs.cons, hs.fill⟩
  · rw [e]
    exact ⟨hs.bufs, hs.frames, by simpa using hs.flags, hs.prod, Nat.mod_lt _ (Nat.zero_lt_of_lt hs.cons), hs.fill⟩

/-- CONSUME keeps the ownership of the ring: the buffer it takes is no longer ready and no longer queued (rules R57,
R222). -/
theorem RingOwned.consume {s : State} (ho : RingOwned s) (hs : RingShape s) : RingOwned (consume s) := by
  rcases consume_cases s with ⟨-, e⟩ | ⟨-, -, e⟩ | ⟨-, hr, e⟩
  · rw [e]; exact ho
  · rw [e]; exact ho
  · have hq : 0 < queueLength s := Nat.zero_lt_of_lt ((ho _ hs.cons).mp hr)
    rw [e, ringOwned_iff]
    intro k hk
    show (setReady s.consCursor false s).readyAt k = true ↔
      ringDistance s.cfg.nBuf ((s.consCursor + 1) % s.cfg.nBuf) k <
        ringDistance s.cfg.nBuf ((s.consCursor + 1) % s.cfg.nBuf) s.prodCursor
    have hlt := queueLength_lt (Nat.zero_lt_of_lt hs.prod)
    have hprod : s.prodCursor ≠ s.consCursor := by
      intro h
      rw [queueLength_eq, h, ringDistance_eq hs.cons hs.cons, if_pos (Nat.le_refl _)] at hq
      omega
    rw [readyAt_setReady, ringDistance_from_succ hs.cons hk, ringDistance_from_succ hs.cons hs.prod, if_neg hprod,
      ← queueLength_eq, hs.flags]
    by_cases hc : k = s.consCursor
    · rw [if_pos ⟨hc.symm, hk⟩, if_pos hc]
      exact ⟨fun h => absurd h Bool.false_ne_true, fun h => by omega⟩
    · rw [if_neg (fun h => hc h.1.symm), if_neg hc, (ringOwned_iff s).mp ho k hk]
      have hne : ringDistance s.cfg.nBuf s.consCursor k ≠ 0 := by
        rw [ringDistance_eq hs.cons hk]
        have := hs.cons
        split <;> omega
      omega

end Sys2Proof.Machine
end

section
/-! PROOFS. The noise LFSR never gets stuck (rules R43, R122, R151; item U11). -/

namespace Sys2Proof.Machine

/-- A shift moves a zero below the higher feedback bit one up; when the only zero is at that bit, the two feedback bits
differ and the shift brings a new zero in at bit 0 (rule R151). -/
theorem lfsrShift_alive {f t : Nat} (hne : t ≠ f) {x : BitVec 15} {b : Nat} (hb : b ≤ max f t)
    (hx : x.getLsbD b = false) : ∃ b', b' ≤ max f t ∧ (lfsrShift f t x).getLsbD b' = false := by
  have shifted : ∀ j, x.getLsbD j = false → (lfsrShift f t x).getLsbD (j + 1) = false := fun j hj => by
    simp [lfsrShift, BitVec.getLsbD_shiftConcat, hj]
  by_cases hlow : ∃ j, j < max f t ∧ x.getLsbD j = false
  · obtain ⟨j, hj, hz⟩ := hlow
    exact ⟨j + 1, hj, shifted j hz⟩
  · have hone : ∀ j, j < max f t → x.getLsbD j = true := fun j hj => by
      by_contra h
      exact hlow ⟨j, hj, by simpa using h⟩
    have htop : x.getLsbD (max f t) = false := by
      rcases Nat.lt_or_eq_of_le hb with h | h
      · exact absurd hx (by simp [hone b h])
      · rw [← h]; exact hx
    have hxor : (x.getLsbD f ^^ x.getLsbD t) = true := by
      rcases Nat.lt_or_gt_of_ne hne with h | h
      · rw [hone t (by omega), show f = max f t by omega, htop]; rfl
      · rw [hone f (by omega)]
        rw [show max f t = t by omega] at htop
        rw [htop]; rfl
    exact ⟨0, Nat.zero_le _, by simp [lfsrShift, hxor]⟩

/-- `NoiseAlive` reads the parameters, EV1[5] and the LFSR alone. -/
theorem NoiseAlive.congr {s t : State} (h : NoiseAlive s) (hc : t.cfg = s.cfg)
    (he : (t.ch chNoise).ev1 = (s.ch chNoise).ev1) (hn : t.noiseShift = s.noiseShift) : NoiseAlive t := by
  unfold NoiseAlive
  rw [hc, he, hn]
  exact h

/-- A cleared LFSR is alive (rules R43, R115, R122). -/
theorem NoiseAlive.of_zero {s : State} (h : s.noiseShift = 0) : NoiseAlive s :=
  ⟨0, Nat.zero_le _, by rw [h]; rfl⟩

/-- The fixed feedback bit is none of the taps: where it is one, the two inputs cancel and the LFSR fills with ones. -/
def TapsDiffer (p : Params) : Prop := ∀ k : Fin 8, p.noiseTap[k] ≠ p.noiseFixedBit

/-- A channel tick keeps the LFSR alive (rules R150, R151). -/
theorem channelTick_keeps_noiseAlive (c : Chan) {s : State} (ht : TapsDiffer s.cfg) (h : NoiseAlive s) :
    NoiseAlive (channelTick c s) := by
  unfold channelTick
  split
  · obtain ⟨b, hb, hx⟩ := h
    exact lfsrShift_alive (ht _) hb hx
  · exact h.congr (State.setPhase_cfg ..) (by rw [ch_setPhase]) (State.setPhase_noiseShift ..)

/-- A channel's part of a sample keeps the LFSR alive. -/
theorem stepChannel_keeps_noiseAlive (m : Mix) (c : Chan) (h : TapsDiffer m.st.cfg ∧ NoiseAlive m.st) :
    TapsDiffer (stepChannel m c).st.cfg ∧ NoiseAlive (stepChannel m c).st := by
  obtain ⟨k, n, e⟩ := stepChannel_shape m c
  have hticks : ∀ j, TapsDiffer ((channelTick c)^[j] m.st).cfg ∧ NoiseAlive ((channelTick c)^[j] m.st) := by
    intro j
    induction j with
    | zero => exact h
    | succ j ih =>
      rw [Function.iterate_succ_apply']
      exact ⟨by rw [channelTick_cfg]; exact ih.1, channelTick_keeps_noiseAlive c ih.1 ih.2⟩
  obtain ⟨htaps, halive⟩ := hticks k
  rw [e]
  refine ⟨htaps, halive.congr rfl ?_ rfl⟩
  obtain ⟨n', hch, -⟩ := stepChannel_ch m c chNoise
  rw [← e, hch, channelTick_iterate_ch]

/-- A sample keeps the LFSR alive, its tick and its completed buffer included (rules R142, R151, R191). -/
theorem produceSample_keeps_noiseAlive (s : State) (h : TapsDiffer s.cfg ∧ NoiseAlive s) :
    TapsDiffer (produceSample s).cfg ∧ NoiseAlive (produceSample s) := by
  obtain ⟨htaps, halive⟩ := h
  have hticked : TapsDiffer (tickIfDue s).cfg ∧ NoiseAlive (tickIfDue s) := by
    refine ⟨by rw [tickIfDue_cfg]; exact htaps, halive.congr (tickIfDue_cfg s) ?_ (tickIfDue_noiseShift s)⟩
    exact congrArg ChannelRegs.ev1 (tickIfDue_ticked s chNoise).regs
  have hmix := mixChannels_keeps (P := fun u => TapsDiffer u.cfg ∧ NoiseAlive u) stepChannel_keeps_noiseAlive hticked
  exact ⟨by rw [produceSample_cfg]; exact htaps,
    hmix.2.congr (by simp) (by rw [produceSample_ch]) (produceSample_noiseShift s)⟩

/-- ADVANCE keeps the LFSR alive. -/
theorem advance_keeps_noiseAlive (toCycle : Cycle) {s : State} (ht : TapsDiffer s.cfg) (h : NoiseAlive s) :
    NoiseAlive (advance toCycle s) :=
  (advance_keeps (P := fun u => TapsDiffer u.cfg ∧ NoiseAlive u) (fun _ _ hu => hu) produceSample_keeps_noiseAlive
    toCycle ⟨ht, h⟩).2

/-- Every instruction keeps the LFSR alive: what does not advance clears it, or leaves it and its tap alone. -/
theorem InstrEffect.noiseAlive {now : Cycle} {s t : State} (he : InstrEffect now s t) (ht : TapsDiffer s.cfg)
    (h : NoiseAlive s) : NoiseAlive t := by
  cases he with
  | idle e => subst e; exact h
  | write off w =>
    have hu : NoiseAlive (catchUp off now s) := by
      rcases catchUp_cases off now s with e | e <;> rw [e]
      · exact advance_keeps_noiseAlive now ht h
      · exact h
    rcases w.noise with hz | ⟨hn, hev⟩
    · exact .of_zero hz
    · exact hu.congr (congrArg Progress.cfg w.progress_eq) hev hn
  | advance e => subst e; exact advance_keeps_noiseAlive now ht h
  | reset e => subst e; exact .of_zero rfl
  | muted b e => subst e; exact h
  | paused b e => subst e; exact h
  | consume e =>
    subst e
    rcases consume_cases s with ⟨-, e⟩ | ⟨-, -, e⟩ | ⟨-, -, e⟩ <;> (rw [e]; exact h)

/-- With valid parameters the feedback bits lie in the LFSR, so a living one is not stuck (rules R43, R151). -/
theorem NoiseAlive.not_stuck {s : State} (h : NoiseAlive s) (hv : s.cfg.Valid) : s.noiseShift ≠ 0x7FFF := by
  obtain ⟨b, hb, hz⟩ := h
  obtain ⟨-, -, -, -, -, -, htap, hfix, -⟩ := hv
  have hlt : b < 15 := by
    have : noiseTapBit s.cfg (s.ch chNoise).ev1 < 15 := htap _
    omega
  intro e
  rw [e] at hz
  have hones : ∀ j : Fin 15, (0x7FFF : BitVec 15).getLsbD j = true := by decide
  exact absurd hz (by rw [hones ⟨b, hlt⟩]; exact Bool.noConfusion)

/-- Settles O36: every step keeps the LFSR alive, since a shift keeps a zero up to its higher feedback bit. -/
theorem noiseNeverGetsStuck : Obligations.NoiseNeverGetsStuck := by
  intro s t htaps halive hstep
  obtain ⟨hv, ⟨-, rfl⟩ | ⟨op, rest, -, -, he⟩⟩ := step_cases hstep
  · exact ⟨halive, halive.not_stuck hv⟩
  · have ht : NoiseAlive t := he.noiseAlive htaps halive
    exact ⟨ht, ht.not_stuck (by rw [he.cfg_eq]; exact hv)⟩

end Sys2Proof.Machine
end

section
/-! PROOFS. The count of samples (rules R44, R45, R51), what ADVANCE keeps (rules R20, R161, R171) and what it appends
to the queue (rules R50, R217, R227). -/

namespace Sys2Proof.Machine

/-- `n` samples, as the fill position and the effects divider say; the time base is put aside (rules R45, R51). -/
def CursorsCount (s : State) (n : Nat) : Prop :=
  s.fillPos = n % s.cfg.frames ∧ (s.effectDivider + n) % tickSamples = s.cfg.effectDivReset % tickSamples

theorem samplesCounted_iff (s : State) (n : Nat) :
    SamplesCounted s n ↔ s.lastSynthesizedCycle = s.cfg.cps * n ∧ CursorsCount s n := Iff.rfl

/-- A sample counts as one (rules R45, R51, R142). -/
theorem CursorsCount.produceSample {s : State} {n : Nat} (h : CursorsCount s n) (hf : 1 ≤ s.cfg.frames) :
    CursorsCount (produceSample s) (n + 1) := by
  obtain ⟨hfill, hdiv⟩ := h
  have hlt : s.fillPos < s.cfg.frames := by rw [hfill]; exact Nat.mod_lt _ hf
  unfold CursorsCount
  rw [produceSample_cfg]
  constructor
  · rw [produceSample_fillPos, ← Nat.mod_add_mod, ← hfill]
    exact (succ_mod_ring hlt).symm
  · rw [produceSample_effectDivider, ← hdiv]
    unfold tickSamples
    split <;> omega

theorem CursorsCount.produceSamples {s : State} {n : Nat} (h : CursorsCount s n) (hf : 1 ≤ s.cfg.frames) (k : Nat) :
    CursorsCount (produceSamples k s) (n + k) := by
  induction k generalizing s n with
  | zero => exact h
  | succ k ih =>
    rw [Nat.add_comm k 1, ← Nat.add_assoc, Nat.add_comm 1 k]
    exact ih (h.produceSample hf) (by rw [produceSample_cfg]; exact hf)

/-- ADVANCE keeps the count: each of its samples moves the time base on by `CPS` (rules R44, R140). -/
theorem SamplesCounted.advance {s : State} {n : Nat} (h : SamplesCounted s n) (hf : 1 ≤ s.cfg.frames)
    (toCycle : Cycle) : ∃ m, SamplesCounted (advance toCycle s) m := by
  rcases advance_cases toCycle s with e | ⟨k, -, -, -, e⟩
  · exact ⟨n, by rw [e]; exact h⟩
  · obtain ⟨hclock, hcount⟩ := h
    have hmoved : CursorsCount { s with lastSynthesizedCycle := s.lastSynthesizedCycle + k * s.cfg.cps } n := hcount
    refine ⟨n + k, ?_⟩
    rw [e, samplesCounted_iff]
    refine ⟨?_, hmoved.produceSamples hf k⟩
    rw [produceSamples_lastSynthesizedCycle, produceSamples_cfg]
    show s.lastSynthesizedCycle + k * s.cfg.cps = s.cfg.cps * (n + k)
    rw [hclock, Nat.mul_add, Nat.mul_comm k]

/-- The count is a matter of the progress alone. -/
theorem SamplesCounted.of_progress_eq {s t : State} {n : Nat} (h : SamplesCounted s n) (hp : progress t = progress s) :
    SamplesCounted t n := by
  have hcfg : t.cfg = s.cfg := congrArg Progress.cfg hp
  have hclock : t.lastSynthesizedCycle = s.lastSynthesizedCycle := congrArg Progress.lastSynthesizedCycle hp
  have hfill : t.fillPos = s.fillPos := congrArg Progress.fillPos hp
  have hdiv : t.effectDivider = s.effectDivider := congrArg Progress.effectDivider hp
  unfold SamplesCounted
  rw [hcfg, hclock, hfill, hdiv]
  exact h

/-- Every instruction keeps the count: RESET starts it anew, and of the others only ADVANCE, and a WRITE's catch-up,
move what it is read from. -/
theorem InstrEffect.samplesCounted {now : Cycle} {s t : State} {n : Nat} (he : InstrEffect now s t)
    (hf : 1 ≤ s.cfg.frames) (h : SamplesCounted s n) : ∃ m, SamplesCounted t m := by
  cases he with
  | idle e => subst e; exact ⟨n, h⟩
  | write off w =>
    have hu : ∃ m, SamplesCounted (catchUp off now s) m := by
      rcases catchUp_cases off now s with e | e <;> rw [e]
      · exact h.advance hf now
      · exact ⟨n, h⟩
    obtain ⟨m, hm⟩ := hu
    exact ⟨m, hm.of_progress_eq w.progress_eq⟩
  | advance e => subst e; exact h.advance hf now
  | reset e => subst e; exact ⟨0, rfl, (Nat.zero_mod _).symm, rfl⟩
  | muted b e => subst e; exact ⟨n, h⟩
  | paused b e => subst e; exact ⟨n, h⟩
  | consume e =>
    subst e
    refine ⟨n, ?_⟩
    rcases consume_cases s with ⟨-, e⟩ | ⟨-, -, e⟩ | ⟨-, -, e⟩ <;> (rw [e]; exact h)

/-- Settles O59: a step performs one instruction, and every instruction keeps the count. -/
theorem everyStepKeepsTheSampleCount : Obligations.EveryStepKeepsTheSampleCount := by
  intro s t n h hstep
  obtain ⟨⟨-, hf, -⟩, ⟨-, rfl⟩ | ⟨op, rest, -, -, he⟩⟩ := step_cases hstep
  · exact ⟨n, h⟩
  · exact he.samplesCounted (n := n) hf h

/-- A sample writes no setting (rules R20, R161, R171). -/
theorem produceSample_settings (s : State) : settings (produceSample s) = settings s := by
  have hregs : (produceSample s).chan.map channelRegs = s.chan.map channelRegs := by
    apply Vector.ext
    intro i hi
    rw [Vector.getElem_map, Vector.getElem_map]
    exact produceSample_channelRegs s ⟨i, hi⟩
  simp [settings, hregs]

/-- Settles O24: every sample keeps the settings and enables no channel, so an ADVANCE does. -/
theorem advanceKeepsSettings : Obligations.AdvanceKeepsSettings := by
  intro toCycle s t h
  cases h
  refine advance_keeps (P := fun u => settings u = settings s ∧ ∀ c, enabled u c = true → enabled s c = true)
    (fun _ _ hu => hu) (fun u hu => ?_) toCycle ⟨rfl, fun _ hc => hc⟩
  obtain ⟨hset, hen⟩ := hu
  exact ⟨(produceSample_settings u).trans hset, fun c hc => hen c (produceSample_enabled hc)⟩

/-- The ring of a machine with at least two buffers is in shape and owned, and its queue starts with `q` (rules R57,
R227). -/
structure QueueExtends (q : List (List Frame)) (s : State) : Prop where
  two : 2 ≤ s.cfg.nBuf
  shape : RingShape s
  owned : RingOwned s
  queue : ∃ new, ringQueue s = q ++ new

/-- A sample keeps what the queue starts with. -/
theorem QueueExtends.produceSample {q : List (List Frame)} {s : State} (h : QueueExtends q s) :
    QueueExtends q (produceSample s) := by
  have hr := produceSample_ring s
  obtain ⟨new, hq⟩ := h.queue
  obtain ⟨new', hq'⟩ := hr.ringQueue h.owned h.shape h.two
  exact ⟨by rw [produceSample_cfg]; exact h.two, h.shape.sampled hr, h.owned.sampled h.shape h.two hr,
    new ++ new', by rw [hq', hq, List.append_assoc]⟩

/-- Settles O50: every sample only appends to the queue, so an ADVANCE does. -/
theorem producerOnlyAppendsToTheQueue : Obligations.ProducerOnlyAppendsToTheQueue := by
  intro toCycle s t hinv h
  cases h
  obtain ⟨htwo, -⟩ := hinv.valid
  have hs : QueueExtends (ringQueue s) s := ⟨htwo, hinv.shape, hinv.owned, [], (List.append_nil _).symm⟩
  have ht : QueueExtends (ringQueue s) (advance toCycle s) :=
    advance_keeps (fun _ _ hu => ⟨hu.two, ⟨hu.shape.bufs, hu.shape.frames, hu.shape.flags, hu.shape.prod,
      hu.shape.cons, hu.shape.fill⟩, hu.owned, hu.queue⟩) (fun _ hu => hu.produceSample) toCycle hs
  obtain ⟨new, hq⟩ := ht.queue
  refine ⟨new, hq, ?_⟩
  have hlt := queueLength_lt (Nat.le_of_succ_le ht.two)
  rw [advance_cfg] at hlt
  omega

end Sys2Proof.Machine
end

section
/-! PROOFS. RESET and power-on (rules R58, R260, R263, R264), and the invariant of rule R57 over every step. -/

namespace Sys2Proof.Machine

@[simp] theorem powerOn_ch (p : Params) (c : Chan) : (State.powerOn p).ch c = Channel.reset := by
  simp [State.powerOn, State.ch]

/-- At power-on the queue is empty (rule R58). -/
theorem powerOn_queueLength {p : Params} (h : 1 ≤ p.nBuf) : queueLength (State.powerOn p) = 0 := by
  rw [queueLength_eq]
  exact ringDistance_eq (n := p.nBuf) (a := 0) (k := 0) h h

theorem powerOn_ringShape {p : Params} (hv : p.Valid) : RingShape (State.powerOn p) := by
  obtain ⟨hn, hf, -⟩ := hv
  refine ⟨List.length_replicate, fun b hb => ?_, List.length_replicate, Nat.zero_lt_of_lt hn, Nat.zero_lt_of_lt hn, hf⟩
  rw [List.eq_of_mem_replicate hb]
  exact List.length_replicate

/-- At power-on no buffer is ready and none is queued (rules R50, R57 item d). -/
theorem powerOn_ringOwned {p : Params} (hn : 1 ≤ p.nBuf) : RingOwned (State.powerOn p) := by
  intro k hk
  have hready : (State.powerOn p).readyAt k = false := by
    have hk' : k < p.nBuf := hk
    simp [State.readyAt, State.powerOn, hk']
  rw [hready, powerOn_queueLength hn]
  simp

theorem powerOn_ranges {p : Params} (hv : p.Valid) : Ranges (State.powerOn p) := by
  obtain ⟨-, -, -, -, -, -, -, -, -, heff, hsh, henv, -, hlo, hhi, -⟩ := hv
  exact ⟨Nat.two_pow_pos _, heff, hsh, henv, Nat.zero_le _, fun c => by rw [powerOn_ch]; exact Nat.zero_le _, hlo, hhi⟩

theorem powerOn_enabled (p : Params) (c : Chan) : enabled (State.powerOn p) c = false := by
  rw [enabled, powerOn_ch]
  rfl

/-- The invariant at power-on (rules R57, R58). -/
theorem powerOn_inv {p : Params} (hv : p.Valid) : Inv (State.powerOn p) where
  valid := hv
  shape := powerOn_ringShape hv
  owned := powerOn_ringOwned (Nat.le_of_succ_le hv.1)
  ranges := powerOn_ranges hv
  timers c hc := by rw [powerOn_enabled] at hc; exact absurd hc Bool.false_ne_true
  settled := id
  tables := ⟨rfl, fun _ h => absurd h List.not_mem_nil⟩

/-- No sample has been produced at power-on (rules R44, R45, R51). -/
theorem powerOn_samplesCounted (p : Params) : SamplesCounted (State.powerOn p) 0 :=
  ⟨rfl, (Nat.zero_mod _).symm, rfl⟩

/-- Settles O57: every part of the invariant is read off the power-on values. -/
theorem invariantHoldsAtPowerOn : Obligations.InvariantHoldsAtPowerOn :=
  fun p hv => ⟨powerOn_inv hv, powerOn_samplesCounted p⟩

/-- With a settled accumulator the machine is silent at power-on (rules R58, R160). -/
theorem powerOn_silent {p : Params} (h : p.dcReset = 0) : Silent (State.powerOn p) where
  disabled := powerOn_enabled p
  settled := h
  ring b hb f hf := by
    rw [List.eq_of_mem_replicate hb] at hf
    exact List.eq_of_mem_replicate hf
  out _ h := nomatch h

/-- Settles O56: reset is power-on with the default parameters. -/
theorem invariantHoldsAtReset : Obligations.InvariantHoldsAtReset :=
  ⟨powerOn_inv (by decide), powerOn_samplesCounted _, .of_zero rfl, powerOn_silent rfl⟩

/-- Settles O55: each element is the one that `resetAll` writes, the tables and channels read entry by entry. -/
theorem resetRestoresThePowerOnState : Obligations.ResetRestoresThePowerOnState := by
  intro s
  refine ⟨resetAll s, rfl, fun c => ⟨resetAll_ch s c, ?phase⟩, ?ram, fun _ _ => rfl, fun _ => rfl, rfl, rfl, rfl, rfl,
    rfl, rfl, rfl, rfl, rfl, rfl, rfl, rfl, List.length_replicate, fun b => List.eq_of_mem_replicate, rfl, rfl, rfl,
    rfl, rfl, rfl, rfl, rfl, rfl⟩
  case phase => simp [State.phase, resetAll]
  case ram => intro c; simp [resetAll]

/-- The agents' side of the state, the control flags, the pending operations and the last answer, is not in the
invariant (rule R57; assumption 8). -/
theorem Inv.agents {s : State} (h : Inv s) (m p : Bool) (ops : List PortOp) (out : Option (List Frame)) :
    Inv { s with muted := m, paused := p, pending := ops, returned := out } :=
  { h with
    shape := { h.shape with }
    ranges := { h.ranges with } }

/-- RESET leaves a state with the invariant whatever it finds (rules R57, R260). -/
theorem resetAll_inv {s : State} (hv : s.cfg.Valid) : Inv (resetAll s) := by
  rw [resetAll_eq]
  exact (powerOn_inv hv).agents s.muted s.paused s.pending s.returned

/-- Each frequency timer is within its channel's longest period, and runs while the channel is enabled (rules R33, R57
items e and f). -/
def TimersRun (s : State) : Prop :=
  ∀ c, (s.ch c).frequencyTimer ≤ maxPeriod s.cfg c ∧ (enabled s c = true → 1 ≤ (s.ch c).frequencyTimer)

theorem Inv.timersRun {s : State} (h : Inv s) : TimersRun s := fun c => ⟨h.ranges.timer c, h.timers c⟩

/-- A change of the channels that keeps the frequency timers and enables none keeps the timers running. -/
theorem TimersRun.congr {s t : State} (h : TimersRun s) (hc : t.cfg = s.cfg)
    (ht : ∀ c, (t.ch c).frequencyTimer = (s.ch c).frequencyTimer)
    (he : ∀ c, enabled t c = true → enabled s c = true) : TimersRun t := by
  intro c
  rw [hc, ht c]
  exact ⟨(h c).1, fun hen => (h c).2 (he c hen)⟩

/-- A running timer under an open gate is counted down to no less than 1, or reloaded from the period (rules R142, R145,
R146). -/
theorem stepChannel_timer_open {m : Mix} {c : Chan} (hg : gateOpen m.st c = true) (hp : 1 ≤ period m.st c)
    (ht : 1 ≤ (m.st.ch c).frequencyTimer) :
    1 ≤ ((stepChannel m c).st.ch c).frequencyTimer ∧
      ((stepChannel m c).st.ch c).frequencyTimer ≤ max (m.st.ch c).frequencyTimer (period m.st c) := by
  obtain ⟨j, k, n, e, -, hj, hn⟩ := stepChannel_open hg hp ht
  have hnext : ((stepChannel m c).st.ch c).frequencyTimer = n := by rw [e, ch_setTimer_same]
  rw [hnext]
  rcases hj with rfl | hj <;> omega

/-- A channel's part of a sample keeps every timer running: its own by the reload, the others untouched. -/
theorem stepChannel_keeps_timersRun (m : Mix) (c : Chan) (h : m.st.cfg.Valid ∧ TimersRun m.st) :
    (stepChannel m c).st.cfg.Valid ∧ TimersRun (stepChannel m c).st := by
  obtain ⟨hv, hrun⟩ := h
  refine ⟨by rw [stepChannel_cfg]; exact hv, ?_⟩
  cases hg : gateOpen m.st c with
  | false => rw [stepChannel_closed hg]; exact hrun
  | true =>
    have hen : enabled m.st c = true := (Bool.and_eq_true_iff.mp hg).1
    obtain ⟨hlo, hhi⟩ := stepChannel_timer_open hg (period_pos hv c) ((hrun c).2 hen)
    intro d
    rw [stepChannel_cfg]
    by_cases hd : d = c
    · subst hd
      exact ⟨Nat.le_trans hhi (Nat.max_le.mpr ⟨(hrun d).1, period_le m.st d⟩), fun _ => hlo⟩
    · obtain ⟨n, hch, hn⟩ := stepChannel_ch m c d
      rw [enabled, hch, hn hd]
      exact hrun d

/-- A sample keeps every timer running: its tick does not touch them, its mix keeps them (rules R142, R191). -/
theorem produceSample_keeps_timersRun {s : State} (hv : s.cfg.Valid) (h : TimersRun s) :
    TimersRun (produceSample s) := by
  have hticked : (tickIfDue s).cfg.Valid ∧ TimersRun (tickIfDue s) :=
    ⟨by rw [tickIfDue_cfg]; exact hv,
      h.congr (tickIfDue_cfg s) (fun c => (tickIfDue_ticked s c).timer) fun c => (tickIfDue_ticked s c).enable⟩
  obtain ⟨-, hmix⟩ :=
    mixChannels_keeps (P := fun u => u.cfg.Valid ∧ TimersRun u) stepChannel_keeps_timersRun hticked
  refine hmix.congr (by simp) (fun c => by rw [produceSample_ch]) fun c hc => ?_
  rwa [enabled, produceSample_ch] at hc

theorem dcBlendDiv_pos {p : Params} (hv : p.Valid) : 1 ≤ p.dcBlendDiv := by
  obtain ⟨-, -, -, -, -, -, -, -, -, -, -, -, h, -⟩ := hv
  exact h

/-- A sample keeps the counters' ranges (rules R39, R45 to R48, R57 item e). -/
theorem produceSample_ranges {s : State} (h : Inv s) : Ranges (produceSample s) := by
  obtain ⟨hlo, hhi⟩ := produceSample_dcOffset_between (dcBlendDiv_pos h.valid)
  have hdcLow := h.ranges.dcLow
  have hdcHigh := h.ranges.dcHigh
  have heff := h.ranges.effect
  refine ⟨?_, ?_, ?_, ?_, ?_, fun c => (produceSample_keeps_timersRun h.valid h.timersRun c).1, by omega, by omega⟩
  · rw [produceSample_lastSynthesizedCycle, produceSample_cfg]; exact h.ranges.clock
  · rw [produceSample_effectDivider]; split <;> omega
  · rw [produceSample_shutoffDivider]; exact tickIfDue_shutoffDivider_le h.ranges.shutoff
  · rw [produceSample_envelopeDivider]; exact tickIfDue_envelopeDivider_le h.ranges.envelope
  · rw [produceSample_sweepTimer, produceSample_cfg]; exact tickIfDue_sweepTimer_le h.ranges.sweep

/-- A sample keeps the invariant (rules R57, R142). -/
theorem Inv.produceSample {s : State} (h : Inv s) : Inv (produceSample s) where
  valid := by rw [produceSample_cfg]; exact h.valid
  shape := h.shape.sampled (produceSample_ring s)
  owned := h.owned.sampled h.shape h.valid.1 (produceSample_ring s)
  ranges := produceSample_ranges h
  timers c := (produceSample_keeps_timersRun h.valid h.timersRun c).2
  settled hz := by
    rw [produceSample_cfg] at hz
    have hbetween := produceSample_dcOffset_between (dcBlendDiv_pos h.valid)
    have hsettled := h.settled hz
    omega
  tables := by
    unfold TablesCanonical
    rw [produceSample_mem]
    exact h.tables

/-- ADVANCE to a stamp of at most `CYCLE_BITS` bits keeps the invariant (rules R44, R57, R140). -/
theorem Inv.advance {s : State} (h : Inv s) {toCycle : Cycle} (hs : toCycle < 2 ^ s.cfg.cycleBits) :
    Inv (advance toCycle s) := by
  rcases advance_cases toCycle s with e | ⟨n, -, -, hle, e⟩
  · rw [e]; exact h
  · rw [e]
    refine produceSamples_keeps (P := Inv) (fun _ => Inv.produceSample) n ?_
    exact { h with
      shape := { h.shape with }
      ranges := { h.ranges with clock := Nat.lt_of_le_of_lt hle hs } }

/-- What a WRITE does after its catch-up keeps every timer running: an INT write reloads its channel's timer from a
period of at least one cycle, the stop action disables, the other stores touch no timer (rules R110, R120, R123). -/
theorem ChannelWrite.keeps_timersRun {u t : State} (w : ChannelWrite u t) (hc : t.cfg = u.cfg) (hv : u.cfg.Valid)
    (h : TimersRun u) : TimersRun t := by
  cases w with
  | store hst =>
    refine h.congr hc (fun c => (hst c).timer) fun c hen => ?_
    rwa [enabled, (hst c).int] at hen
  | int c v e =>
    intro d
    rw [hc, e]
    by_cases hd : c = d
    · subst hd
      rw [writeInt_ch]
      exact ⟨period_le u c, fun _ => period_pos hv c⟩
    · rw [enabled, writeInt_ch_ne hd]
      exact h d
  | stop e =>
    refine h.congr hc (fun c => by rw [e, stopAll_ch]; rfl) fun c hen => ?_
    rw [enabled, e, stopAll_ch, clearEnable_disabled] at hen
    exact absurd hen Bool.false_ne_true

/-- What a WRITE does after its catch-up keeps the tables canonical (rules R82, R106 to R108). -/
theorem WriteEffect.tablesCanonical {u t : State} (w : WriteEffect u t) (h : TablesCanonical u) :
    TablesCanonical t := by
  obtain ⟨hwf, hkeys⟩ := h
  unfold TablesCanonical
  rcases w.mem with e | ⟨k, i, v, e⟩
  · rw [e]; exact ⟨hwf, hkeys⟩
  · rw [e]
    refine ⟨Memory.write_wf hwf _ _, fun p hp => ?_⟩
    rcases Memory.mem_write hp with hkey | hp
    · rw [hkey, tableOffset_toNat]
      have := k.isLt
      have := i.isLt
      omega
    · exact hkeys p hp

/-- The ring's shape is a matter of the progress alone. -/
theorem RingShape.of_progress_eq {s t : State} (h : RingShape s) (hp : progress t = progress s) : RingShape t := by
  simp only [progress, Progress.mk.injEq] at hp
  obtain ⟨hcfg, -, -, -, -, -, -, hbuf, hready, hprod, hfill, hcons, -⟩ := hp
  constructor <;> simp only [hcfg, hbuf, hready, hprod, hfill, hcons]
  exacts [h.bufs, h.frames, h.flags, h.prod, h.cons, h.fill]

/-- The ring's ownership is a matter of the progress alone. -/
theorem RingOwned.of_progress_eq {s t : State} (h : RingOwned s) (hp : progress t = progress s) : RingOwned t := by
  simp only [progress, Progress.mk.injEq] at hp
  obtain ⟨hcfg, -, -, -, -, -, -, -, hready, hprod, -, hcons, -⟩ := hp
  unfold RingOwned queueLength State.readyAt
  rw [hcfg, hready, hprod, hcons]
  exact h

/-- What a WRITE does after its catch-up keeps the invariant (rules R57, R124). -/
theorem Inv.written {u t : State} (h : Inv u) (w : WriteEffect u t) : Inv t := by
  have hp := w.progress_eq
  simp only [progress, Progress.mk.injEq] at hp
  obtain ⟨hcfg, hclock, heff, hshut, henv, -, hdc, -⟩ := hp
  have hrun := w.channelWrite.keeps_timersRun hcfg h.valid h.timersRun
  refine ⟨?valid, h.shape.of_progress_eq w.progress_eq, h.owned.of_progress_eq w.progress_eq, ?ranges,
    fun c => (hrun c).2, ?settled, w.tablesCanonical h.tables⟩
  case valid => rw [hcfg]; exact h.valid
  case settled => rw [hcfg, hdc]; exact h.settled
  case ranges =>
    have hsweep : t.sweepTimer ≤ 7 * max u.cfg.sweepClk0 u.cfg.sweepClk1 := by
      rcases w.sweepTimer with e | e
      · rw [e]; exact h.ranges.sweep
      · rw [e]; exact sweepInterval_le _ _
    exact ⟨by rw [hclock, hcfg]; exact h.ranges.clock, by rw [heff]; exact h.ranges.effect,
      by rw [hshut]; exact h.ranges.shutoff, by rw [henv]; exact h.ranges.envelope, by rw [hcfg]; exact hsweep,
      fun c => (hrun c).1, by rw [hdc]; exact h.ranges.dcLow, by rw [hdc]; exact h.ranges.dcHigh⟩

/-- CONSUME keeps the invariant (rules R57, R222). -/
theorem Inv.consume {s : State} (h : Inv s) : Inv (consume s) := by
  have hshape := h.shape.consume
  have howned := h.owned.consume h.shape
  rcases consume_cases s with ⟨-, e⟩ | ⟨-, -, e⟩ | ⟨-, -, e⟩ <;> rw [e] at hshape howned ⊢ <;>
    exact { h with shape := hshape, owned := howned, ranges := { h.ranges with } }

/-- Every instruction whose stamp has at most `CYCLE_BITS` bits keeps the invariant. -/
theorem InstrEffect.inv {now : Cycle} {s t : State} (he : InstrEffect now s t) (hs : now < 2 ^ s.cfg.cycleBits)
    (h : Inv s) : Inv t := by
  cases he with
  | idle e => subst e; exact h
  | write off w =>
    have hu : Inv (catchUp off now s) := by
      rcases catchUp_cases off now s with e | e <;> rw [e]
      · exact h.advance hs
      · exact h
    exact hu.written w
  | advance e => subst e; exact h.advance hs
  | reset e => subst e; exact resetAll_inv h.valid
  | muted b e => subst e; exact h.agents b s.paused s.pending s.returned
  | paused b e => subst e; exact h.agents s.muted b s.pending s.returned
  | consume e => subst e; exact h.consume

/-- Settles O58: a step performs one instruction, and every instruction keeps the invariant. -/
theorem everyStepKeepsTheInvariant : Obligations.EveryStepKeepsTheInvariant := by
  intro s t h hstep
  obtain ⟨-, ⟨-, rfl⟩ | ⟨op, rest, -, hs, he⟩⟩ := step_cases hstep
  · exact h
  · exact he.inv hs (h.agents s.muted s.paused rest s.returned)

end Sys2Proof.Machine
end

section
/-! PROOFS. Which instruction stands at an offset: the decoder, format by format, and what decoding drops of a
transaction (rules R61, R64, R82 to R90, R103). -/

namespace Sys2Proof

/-- The instruction has an encoding, and it is the transaction of this stamp, offset and operand (rules R88, R93). -/
def StandsAt (now : Cycle) (off : Offset) (v : Byte) (i : Instr) : Prop :=
  i.wellFormed = true ∧ encode i = encodeWrite now off v

/-- Bit `k` of an offset as arithmetic on the offset. -/
theorem offset_bit (off : Offset) (k : Nat) : off.getLsbD k = decide (off.toNat / 2 ^ k % 2 = 1) :=
  Nat.testBit_eq_decide_div_mod_eq

/-- The field of `n` bits from bit `k` of an offset, as arithmetic on the offset (rules R82, R83). -/
theorem offset_field (off : Offset) (k n : Nat) : (off.extractLsb' k n).toNat = off.toNat / 2 ^ k % 2 ^ n := by
  rw [BitVec.extractLsb'_toNat, Nat.shiftRight_eq_div_pow]

/-- An aligned offset below 0x400 is put together from its fields TABLE and entry (rules R81, R82). -/
theorem eq_tableOffset_of_fields {off : Offset} (ha : off.toNat % 4 = 0) (hlow : off.toNat < 0x400) :
    off = tableOffset (off.extractLsb' 7 3).toNat (off.extractLsb' 2 5) := by
  apply BitVec.eq_of_toNat_eq
  rw [tableOffset, BitVec.toNat_ofNat, offset_field, offset_field]
  omega

/-- An aligned offset from 0x400 on whose block is that of channel `c` is put together from `c` and its field REG
(rules R81, R83). -/
theorem eq_regOffset_of_fields {off : Offset} {c : Chan} (ha : off.toNat % 4 = 0) (hhigh : 0x400 ≤ off.toNat)
    (hc : (off.extractLsb' 6 4).toNat = c.val) : off = regOffset c (off.extractLsb' 2 4).toNat := by
  have hlt := off.isLt
  rw [offset_field] at hc
  apply BitVec.eq_of_toNat_eq
  rw [regOffset, BitVec.toNat_ofNat, offset_field]
  omega

/-- The offsets above the six tables and below 0x400 are those of RSVD_TBL (rules R88, R109). -/
theorem rsvdTbl_selects : ∀ (k : Fin 2) (i : Entry),
    Row.selects ⟨0x703, 0x300⟩ (tableOffset (6 + k.val) i) = true := by
  decide

/-- Format T: the instruction at a table offset is the one `decodeTable` gives (rules R82, R90). -/
theorem decodeTable_standsAt {off : Offset} (ha : off.toNat % 4 = 0) (hlow : off.toNat < 0x400) (now : Cycle)
    (v : Byte) : StandsAt now off v (decodeTable now off v) := by
  have hoff := eq_tableOffset_of_fields ha hlow
  have htable := (off.extractLsb' 7 3).isLt
  unfold decodeTable
  generalize (off.extractLsb' 7 3).toNat = table at hoff htable
  match table with
  | 0 | 1 | 2 | 3 | 4 | 5 => exact ⟨rfl, congrArg (encodeWrite now · v) hoff.symm⟩
  | 6 => exact ⟨hoff ▸ rsvdTbl_selects 0 _, rfl⟩
  | 7 => exact ⟨hoff ▸ rsvdTbl_selects 1 _, rfl⟩

/-- The decoder of the block of channel `c` (rule R83). -/
def decodeBlock (c : Chan) : Cycle → Offset → Byte → Instr :=
  match c with
  | 0 => decodeBlock0
  | 1 => decodeBlock1
  | 2 => decodeBlock2
  | 3 => decodeBlock3
  | 4 => decodeBlock4
  | 5 => decodeBlock5

/-- Format C: at each of the sixteen register offsets of each of the six blocks, reserved ones included, stands the
instruction that the block's decoder gives (rules R83, R90). -/
theorem decodeBlock_standsAt_reg (c : Chan) (reg : Fin 16) (now : Cycle) (v : Byte) :
    StandsAt now (regOffset c reg.val) v (decodeBlock c now (regOffset c reg.val) v) := by
  fin_cases c <;> fin_cases reg <;> exact ⟨rfl, rfl⟩

/-- Format C, by the fields of the offset (rules R83, R90). -/
theorem decodeBlock_standsAt {off : Offset} {c : Chan} (ha : off.toNat % 4 = 0) (hhigh : 0x400 ≤ off.toNat)
    (hc : (off.extractLsb' 6 4).toNat = c.val) (now : Cycle) (v : Byte) :
    StandsAt now off v (decodeBlock c now off v) := by
  have hoff := eq_regOffset_of_fields ha hhigh hc
  have hreg := decodeBlock_standsAt_reg c ⟨(off.extractLsb' 2 4).toNat, (off.extractLsb' 2 4).isLt⟩ now v
  rwa [← hoff] at hreg

/-- The aligned offsets from 0x588 on, cut at the powers of two where the reserved rows above SSTOP begin (rules R88,
R119). -/
theorem rsvdHigh_select :
    (∀ k : Fin 2, Row.selects ⟨0x7FB, 0x588⟩ (BitVec.ofNat 11 (0x588 + 4 * k.val)) = true) ∧
    (∀ k : Fin 4, Row.selects ⟨0x7F3, 0x590⟩ (BitVec.ofNat 11 (0x590 + 4 * k.val)) = true) ∧
    (∀ k : Fin 8, Row.selects ⟨0x7E3, 0x5A0⟩ (BitVec.ofNat 11 (0x5A0 + 4 * k.val)) = true) ∧
    (∀ k : Fin 16, Row.selects ⟨0x7C3, 0x5C0⟩ (BitVec.ofNat 11 (0x5C0 + 4 * k.val)) = true) ∧
    (∀ k : Fin 128, Row.selects ⟨0x603, 0x600⟩ (BitVec.ofNat 11 (0x600 + 4 * k.val)) = true) := by
  decide

/-- A row that selects the `n` aligned offsets from `base` on selects an aligned offset among them. -/
theorem Row.selects_of_aligned {r : Row} {base n : Nat}
    (h : ∀ k : Fin n, r.selects (BitVec.ofNat 11 (base + 4 * k.val)) = true) {off : Offset}
    (ha : off.toNat % 4 = base % 4) (hge : base ≤ off.toNat) (hlt : off.toNat < base + 4 * n) :
    r.selects off = true := by
  have hoff : BitVec.ofNat 11 (base + 4 * ((off.toNat - base) / 4)) = off := by
    apply BitVec.eq_of_toNat_eq
    rw [BitVec.toNat_ofNat]
    omega
  exact hoff ▸ h ⟨(off.toNat - base) / 4, by omega⟩

/-- SSTOP and the reserved offsets above it (rules R85, R90). -/
theorem decodeHigh_standsAt {off : Offset} (ha : off.toNat % 4 = 0) (hhigh : 0x580 ≤ off.toNat) (now : Cycle)
    (v : Byte) : StandsAt now off v (decodeHigh now off v) := by
  obtain ⟨hB, hC, hD, hE, hF⟩ := rsvdHigh_select
  have hlt := off.isLt
  unfold decodeHigh
  split
  case isTrue h => exact ⟨rfl, by rw [h]; rfl⟩
  split
  case isTrue h => exact ⟨by rw [h]; rfl, rfl⟩
  have h580 : off.toNat ≠ 0x580 := by bv_omega
  have h584 : off.toNat ≠ 0x584 := by bv_omega
  split
  case isTrue h => exact ⟨Row.selects_of_aligned hB (by omega) (by omega) (by bv_omega), rfl⟩
  split
  case isTrue h => exact ⟨Row.selects_of_aligned hC (by omega) (by bv_omega) (by bv_omega), rfl⟩
  split
  case isTrue h => exact ⟨Row.selects_of_aligned hD (by omega) (by bv_omega) (by bv_omega), rfl⟩
  split
  case isTrue h => exact ⟨Row.selects_of_aligned hE (by omega) (by bv_omega) (by bv_omega), rfl⟩
  case isFalse h => exact ⟨Row.selects_of_aligned hF (by omega) (by bv_omega) (by bv_omega), rfl⟩

/-- RSVD_ODD selects every odd offset (rules R88, R101). -/
theorem rsvdOdd_selects {off : Offset} (h0 : off.getLsbD 0 = true) : Row.selects ⟨0x001, 0x001⟩ off = true := by
  refine beq_iff_eq.mpr (BitVec.eq_of_toNat_eq ?_)
  rw [offset_bit, decide_eq_true_iff, pow_zero, Nat.div_one] at h0
  exact (Nat.and_one_is_mod _).trans h0

/-- RSVD_A1 selects every even offset whose bit 1 is set (rules R88, R101). -/
theorem rsvdA1_selects {off : Offset} (h0 : off.getLsbD 0 = false) (h1 : off.getLsbD 1 = true) :
    Row.selects ⟨0x003, 0x002⟩ off = true := by
  refine beq_iff_eq.mpr (BitVec.eq_of_toNat_eq ?_)
  rw [offset_bit, decide_eq_false_iff_not] at h0
  rw [offset_bit, decide_eq_true_iff] at h1
  calc (off &&& 0x003).toNat = off.toNat % 4 := Nat.and_two_pow_sub_one_eq_mod _ 2
    _ = 2 := by omega

/-- What a transaction decodes to stands at the transaction's offset: the tests of rule R87, in their order. -/
theorem decodeWrite_standsAt (t : WriteTransaction) : StandsAt t.now t.offset t.operand (decodeWrite t) := by
  unfold decodeWrite
  generalize t.offset = off
  have hlt := off.isLt
  dsimp only
  split
  case isTrue h0 => exact ⟨rsvdOdd_selects h0, rfl⟩
  case isFalse h0 =>
  rw [Bool.not_eq_true] at h0
  split
  case isTrue h1 => exact ⟨rsvdA1_selects h0 h1, rfl⟩
  case isFalse h1 =>
  have ha : off.toNat % 4 = 0 := by
    simp only [offset_bit, decide_eq_true_eq, decide_eq_false_iff_not] at h0 h1
    omega
  split
  case isFalse h10 =>
    refine decodeTable_standsAt ha ?_ t.now t.operand
    simp only [offset_bit, decide_eq_true_eq] at h10
    omega
  case isTrue h10 =>
    have hhigh : 0x400 ≤ off.toNat := by
      simp only [offset_bit, decide_eq_true_eq] at h10
      omega
    split
    case h_1 h => exact decodeBlock_standsAt (c := 0) ha hhigh h t.now t.operand
    case h_2 h => exact decodeBlock_standsAt (c := 1) ha hhigh h t.now t.operand
    case h_3 h => exact decodeBlock_standsAt (c := 2) ha hhigh h t.now t.operand
    case h_4 h => exact decodeBlock_standsAt (c := 3) ha hhigh h t.now t.operand
    case h_5 h => exact decodeBlock_standsAt (c := 4) ha hhigh h t.now t.operand
    case h_6 h => exact decodeBlock_standsAt (c := 5) ha hhigh h t.now t.operand
    case h_7 n0 n1 n2 n3 n4 n5 =>
      refine decodeHigh_standsAt ha ?_ t.now t.operand
      simp only [imp_false, offset_field] at n0 n1 n2 n3 n4 n5
      omega

/-- Settles O2: what a transaction decodes to stands at its offset, with its stamp and operand, and the encoder puts
the base and the zeros there. -/
theorem decodingDropsOnlyIgnoredBits : Obligations.DecodingDropsOnlyIgnoredBits := decodeWrite_standsAt

end Sys2Proof
end

section
/-! PROOFS. The bits of a transaction that nothing looks at (rules R61, R103). -/

namespace Sys2Proof

/-- Transactions whose addresses agree in the low eleven bits have the same offset (rule R61). -/
theorem WriteTransaction.offset_congr {t u : WriteTransaction}
    (h : ∀ k, k < 11 → t.address.getLsbD k = u.address.getLsbD k) : t.offset = u.offset := by
  apply BitVec.eq_of_getLsbD_eq
  intro k hk
  simpa [WriteTransaction.offset, hk] using h k hk

/-- Transactions whose values agree in the low byte have the same operand (rule R103). -/
theorem WriteTransaction.operand_congr {t u : WriteTransaction}
    (h : ∀ k, k < 8 → t.value.getLsbD k = u.value.getLsbD k) : t.operand = u.operand := by
  apply BitVec.eq_of_getLsbD_eq
  intro k hk
  simpa [WriteTransaction.operand, hk] using h k hk

/-- Transactions whose addresses agree in the bits of a window have, through it, the same offset (rules R17, R61). -/
theorem offset_and_congr {t u : WriteTransaction} {mask : Offset}
    (h : ∀ k, k < 11 → mask.getLsbD k = true → t.address.getLsbD k = u.address.getLsbD k) :
    t.offset &&& mask = u.offset &&& mask := by
  apply BitVec.eq_of_getLsbD_eq
  intro k hk
  cases hm : mask.getLsbD k with
  | false => rw [BitVec.getLsbD_and, BitVec.getLsbD_and, hm, Bool.and_false, Bool.and_false]
  | true =>
    have hbit : t.offset.getLsbD k = u.offset.getLsbD k := by
      simpa [WriteTransaction.offset, hk] using h k hk hm
    rw [BitVec.getLsbD_and, BitVec.getLsbD_and, hbit]

/-- Through a window, decoding looks at the stamp, the address bits of the window and the low value byte alone (rules
R17, R61, R103). -/
theorem decode_inWindow_congr {t u : WriteTransaction} {mask : Offset} (hn : t.now = u.now)
    (ha : ∀ k, k < 11 → mask.getLsbD k = true → t.address.getLsbD k = u.address.getLsbD k)
    (hv : ∀ k, k < 8 → t.value.getLsbD k = u.value.getLsbD k) :
    decode ((PortOp.write t).inWindow mask) = decode ((PortOp.write u).inWindow mask) := by
  refine decodeWrite_congr hn ?_ (WriteTransaction.operand_congr hv)
  rw [offset_inWindow, offset_inWindow, offset_and_congr ha]

end Sys2Proof

namespace Sys2Proof.Machine

/-- Two states that differ in the first pending operation alone step to the same, when the two operations have the same
stamp and decode, through the window, to the same instruction (rules R61, R80). -/
theorem step_congr {s s' : State} {op op' : PortOp} {rest : List PortOp} (hp : s.pending = op :: rest)
    (hp' : s'.pending = op' :: rest)
    (hrest : { s' with pending := rest } = { s with pending := rest }) (hs : op'.stamp = op.stamp)
    (hd : decode (op'.inWindow s.cfg.windowMask) = decode (op.inWindow s.cfg.windowMask)) : step s' = step s := by
  have hcfg : s'.cfg = s.cfg := (State.mk.inj hrest).1
  by_cases hv : s.cfg.Valid
  · by_cases hb : op.stamp < 2 ^ s.cfg.cycleBits
    · rw [step_pending hv hp hb, step_pending (hcfg ▸ hv) hp' (by rw [hs, hcfg]; exact hb), hrest, hcfg, hd]
    · have hb' := Nat.not_lt.mp hb
      rw [step_stampOutOfRange hv hp hb', step_stampOutOfRange (hcfg ▸ hv) hp' (by rw [hs, hcfg]; exact hb')]
  · rw [step_invalidParameters hv, step_invalidParameters (hcfg ▸ hv)]

/-- Settles O10: equal low bits give equal offsets and operands, and decoding looks at nothing else. -/
theorem ignoredBitsHaveNoEffect : Obligations.IgnoredBitsHaveNoEffect := by
  refine ⟨fun t u s hn ha hv => ?_, fun t u s rest hn ha hv => ?_⟩
  · have hd : decodeWrite t = decodeWrite u :=
      decodeWrite_congr hn (WriteTransaction.offset_congr ha) (WriteTransaction.operand_congr hv)
    exact congrArg (exec · s) hd
  · exact step_congr rfl rfl rfl hn (decode_inWindow_congr hn ha hv)

end Sys2Proof.Machine
end

section
/-! PROOFS. What a WRITE to a table stores, and what the write lock protects (rules R69, R104 to R108, R270). -/

namespace Sys2Proof.Machine

/-- A WRITE that stores in a table is one the lock lets through, and it changes that entry alone; every other WRITE
leaves the tables as they are (rules R69, R104, R105). -/
theorem WriteEffect.mem_unlocked {u t : State} (h : WriteEffect u t) :
    t.mem = u.mem ∨ ∃ (k : Fin 6) (i : Entry) (v : Byte), tableLocked u (tableOffset k.val i) = false ∧
      t = { u with mem := u.mem.write (tableOffset k.val i).toNat v } := by
  cases h with
  | none h => subst h; exact .inl rfl
  | table k i v h =>
    subst h
    rcases writeTable_cases (tableOffset k.val i) v u with ⟨-, e⟩ | ⟨hl, e⟩
    · exact .inl (by rw [e])
    · exact .inr ⟨k, i, v, hl, e⟩
  | int c v h => subst h; exact .inl (writeInt_mem c v u)
  | lrv c v h => subst h; exact .inl rfl
  | fql c v h => subst h; exact .inl (writeFql_mem c v u)
  | fqh c v h => subst h; exact .inl (writeFqh_mem c v u)
  | ev0 c v h => subst h; exact .inl rfl
  | ev1 c v h => subst h; exact .inl (writeEv1_mem c v u)
  | ram c v h => subst h; exact .inl rfl
  | swp v h => subst h; exact .inl rfl
  | stop h => subst h; exact .inl rfl

/-- The tables change only by a WRITE that the lock lets through in the very state after it, and by RESET, which
disables every channel (rules R69, R270). -/
theorem InstrEffect.mem_cases {now : Cycle} {s t : State} (h : InstrEffect now s t) :
    t.mem = s.mem ∨ (∀ c, enabled t c = false) ∨
      ∃ (k : Fin 6) (i : Entry) (v : Byte), tableLocked t (tableOffset k.val i) = false ∧
        t.mem = s.mem.write (tableOffset k.val i).toNat v := by
  cases h with
  | idle h => rw [h]; exact .inl rfl
  | write off w =>
    rcases w.mem_unlocked with e | ⟨k, i, v, hl, e⟩
    · exact .inl (e.trans (catchUp_mem s off now))
    · refine .inr (.inr ⟨k, i, v, ?_, ?_⟩)
      · rw [e]; exact hl
      · rw [e]; exact congrArg (Memory.write · _ v) (catchUp_mem s off now)
  | advance h => rw [h]; exact .inl (advance_mem s now)
  | reset h => rw [h]; exact .inr (.inl fun c => by rw [enabled, resetAll_ch]; rfl)
  | muted b h => rw [h]; exact .inl rfl
  | paused b h => rw [h]; exact .inl rfl
  | consume h => rcases consume_cases s with ⟨-, e⟩ | ⟨-, -, e⟩ | ⟨-, -, e⟩ <;> (rw [h, e]; exact .inl rfl)

/-- A byte at which the lock holds after an instruction is the byte from before it (rules R69, R104, R105). -/
theorem InstrEffect.read_locked {now : Cycle} {s t : State} (h : InstrEffect now s t) {a : Nat}
    (hend : a < t.cfg.waveRegionEnd)
    (hl : enabled t chNoise = true ∨ (a < t.cfg.waveLockSplit ∧ ∃ c : Chan, c.val ≤ 4 ∧ enabled t c = true)) :
    t.mem.read a = s.mem.read a := by
  rcases h.mem_cases with e | hoff | ⟨k, i, v, hunlocked, e⟩
  · rw [e]
  · rcases hl with hc | ⟨-, c, -, hc⟩ <;> exact absurd hc (by simp [hoff])
  · rw [e]
    refine Memory.read_write_other _ _ _ fun ha => ?_
    subst ha
    exact absurd ((tableLocked_iff t _).mpr ⟨hend, hl⟩) (by simp [hunlocked])

/-- With the default bound, channel 5 locks every entry of every table (rule R104). -/
theorem InstrEffect.mem_locked {now : Cycle} {s t : State} (h : InstrEffect now s t)
    (hend : t.cfg.waveRegionEnd = 0x400) (hn : enabled t chNoise = true) : t.mem = s.mem := by
  rcases h.mem_cases with e | hoff | ⟨k, i, v, hunlocked, -⟩
  · exact e
  · exact absurd hn (by simp [hoff])
  · have hin : (tableOffset k.val i).toNat < t.cfg.waveRegionEnd := by
      have hk := k.isLt
      have hi := i.isLt
      rw [tableOffset_toNat, hend]
      omega
    exact absurd ((tableLocked_iff t _).mpr ⟨hin, .inl hn⟩) (by simp [hunlocked])

/-- Settles O21: the lock is read in the state after the instruction, where a store has left the enable bits and a
RESET has cleared them. -/
theorem lockedTablesDoNotChange : Obligations.LockedTablesDoNotChange := by
  intro i s t h
  have he := exec_cases h
  have hcfg := he.cfg_eq
  refine ⟨fun h5 a ha => he.read_locked (hcfg ▸ ha) (.inl h5), fun h5 hend => he.mem_locked (hcfg ▸ hend) h5, ?_⟩
  rintro ⟨c, hc⟩ a hsplit hend
  refine he.read_locked (hcfg ▸ hend) ?_
  by_cases hw : c.val ≤ 4
  · exact .inr ⟨hcfg ▸ hsplit, c, hw, hc⟩
  · have h5 : c = chNoise := Fin.ext (by have := c.isLt; show c.val = 5; omega)
    exact .inl (h5 ▸ hc)

/-- WAVEt is the table write of table `t` (rules R106, R107). -/
theorem exec_waveOf (w : WaveChan) (now : Cycle) (i : Entry) (v : Byte) (s : State) :
    exec (waveOf w now i v) s = .next (tableWrite w.val now i v s) := by
  match w with
  | 0 | 1 | 2 | 3 | 4 => rfl

/-- The offset of an entry, written with its factors in the other order (rule R82). -/
theorem tableOffset_eq (table : Nat) (i : Entry) :
    tableOffset table i = BitVec.ofNat 11 (0x80 * table + 4 * i.toNat) := by
  rw [tableOffset, Nat.mul_comm table, Nat.mul_comm i.toNat]

/-- A rejected table write leaves the state as it was (rules R104, R105). -/
theorem writeTable_locked {s : State} {off : Offset} (h : tableLocked s off = true) (v : Byte) :
    writeTable off v s = s :=
  if_pos h

/-- A table write that the lock lets through stores its byte (rules R106 to R108). -/
theorem writeTable_unlocked {s : State} {off : Offset} (h : tableLocked s off = false) (v : Byte) :
    writeTable off v s = { s with mem := s.mem.write off.toNat v } :=
  if_neg (by simp [h])

/-- The byte of entry `i` of table `k`, the modulation table as table 5 (rules R30, R31, R82). -/
def State.entry (s : State) (k : Fin 6) (i : Entry) : Byte := s.mem.read (tableOffset k.val i).toNat

/-- The wave tables are the first five (rules R30, R82). -/
theorem State.wave_eq_entry (s : State) (w : WaveChan) (i : Entry) : s.wave w i = s.entry w.castSucc i := rfl

/-- The modulation table is the last (rules R31, R82). -/
theorem State.mod_eq_entry (s : State) (i : Entry) : s.mod i = s.entry 5 i := rfl

/-- A table write that the lock lets through changes the entry it names. -/
theorem writeTable_entry_same {s : State} {k : Fin 6} {i : Entry} (hm : Memory.wf s.mem = true)
    (h : tableLocked s (tableOffset k.val i) = false) (v : Byte) :
    (writeTable (tableOffset k.val i) v s).entry k i = v := by
  rw [writeTable_unlocked h]
  exact Memory.read_write_same hm _ v

/-- A table write leaves every other entry alone. -/
theorem writeTable_entry_ne {k k' : Fin 6} {i i' : Entry} (hne : (k', i') ≠ (k, i)) (v : Byte) (s : State) :
    (writeTable (tableOffset k.val i) v s).entry k' i' = s.entry k' i' := by
  rcases writeTable_cases (tableOffset k.val i) v s with ⟨-, e⟩ | ⟨-, e⟩
  · rw [e]
  · rw [e]
    refine Memory.read_write_other _ _ _ fun ho => hne ?_
    obtain ⟨rfl, rfl⟩ := tableOffset_inj ho
    rfl

/-- A table write changes nothing but the tables (rule R124). -/
theorem writeTable_frame (off : Offset) (v : Byte) (s : State) : { writeTable off v s with mem := s.mem } = s := by
  rcases writeTable_cases off v s with ⟨-, e⟩ | ⟨-, e⟩ <;> rw [e]

/-- Settles O11: the lock of the statement is that of the model at the entry's offset, and a table write is known in
both its cases. -/
theorem waveWriteStoresUnlessLocked : Obligations.WaveWriteStoresUnlessLocked := by
  rintro w now i v s u off locked rfl hu hm hlocked
  have hoff : tableOffset w.val i = BitVec.ofNat 11 (0x80 * w.val + 4 * i.toNat) := tableOffset_eq w.val i
  have hnat : (tableOffset w.val i).toNat = 0x80 * w.val + 4 * i.toNat := tableOffset_toNat w.castSucc i
  have hcfg : u.cfg = s.cfg := by rw [hu, catchUp_cfg]
  have hlock : locked ↔ tableLocked u (tableOffset w.val i) = true := by
    rw [hlocked, tableLocked_iff, hnat, hcfg]
  refine ⟨fun hend hsplit => ?defaultBounds, writeTable (tableOffset w.val i) v u, ?exec, fun h => ?rejected,
    fun h => ⟨?same, fun w' i' hne => ?other, fun i' => ?mod, writeTable_frame _ v u⟩⟩
  case defaultBounds =>
    have hw := w.isLt
    have hi := i.isLt
    have hclass : 0x80 * w.val + 4 * i.toNat < 0x400 := by omega
    have hlower : 0x80 * w.val + 4 * i.toNat < 0x200 ↔ w.val ≤ 3 := by omega
    rw [hlocked, hend, hsplit, hlower]
    exact and_iff_right hclass
  case exec => rw [exec_waveOf, tableWrite, hoff, ← hu]
  case rejected => exact writeTable_locked (hlock.mp h) v
  case same =>
    have hfree : tableLocked u (tableOffset w.castSucc.val i) = false := by
      rw [hlock] at h
      simpa using h
    rw [State.wave_eq_entry]
    exact writeTable_entry_same hm hfree v
  case other =>
    rw [State.wave_eq_entry, State.wave_eq_entry]
    refine writeTable_entry_ne (k := w.castSucc) (fun e => hne ?_) v u
    obtain ⟨hk, rfl⟩ := Prod.mk.inj e
    rw [Fin.castSucc_injective _ hk]
  case mod =>
    rw [State.mod_eq_entry, State.mod_eq_entry]
    refine writeTable_entry_ne (k := w.castSucc) (fun e => ?_) v u
    exact absurd (congrArg Fin.val (Prod.mk.inj e).1) (Nat.ne_of_gt w.isLt)

end Sys2Proof.Machine
end

section
/-! PROOFS. The opcode table is a partition of the offsets, a row and the fields of an encoding are enough to tell an
instruction, and decoding is the inverse of encoding (rules R82 to R90, R95). -/

namespace Sys2Proof

/-- The rows ask for different values of a bit that both look at (rule R88). -/
def Row.Disjoint (r r' : Row) : Prop := r.pattern &&& r'.mask ≠ r'.pattern &&& r.mask

/-- No offset is selected by two disjoint rows. -/
theorem Row.Disjoint.not_selects {r r' : Row} (h : r.Disjoint r') {off : Offset} (hr : r.selects off = true) :
    r'.selects off ≠ true := by
  intro hr'
  apply h
  calc r.pattern &&& r'.mask
      _ = off &&& r.mask &&& r'.mask := by rw [beq_iff_eq.mp hr]
      _ = off &&& r'.mask &&& r.mask := by rw [BitVec.and_assoc, BitVec.and_comm r.mask, BitVec.and_assoc]
      _ = r'.pattern &&& r.mask := by rw [beq_iff_eq.mp hr']

/-- The 63 rows of the opcode table are disjoint in pairs (rule R88). -/
theorem opcodeRows_pairwise_disjoint : opcodeRows.Pairwise Row.Disjoint := by
  unfold Row.Disjoint
  decide

/-- No row stands twice in the opcode table. -/
theorem opcodeRows_nodup : opcodeRows.Nodup :=
  opcodeRows_pairwise_disjoint.imp fun h e => h (by rw [e])

/-- Of rows disjoint in pairs, exactly one selects an offset that some row selects. -/
theorem length_filter_selects {rows : List Row} (hd : rows.Pairwise Row.Disjoint) {r : Row} {off : Offset}
    (hmem : r ∈ rows) (hr : r.selects off = true) : (rows.filter fun r => r.selects off).length = 1 := by
  have hselects : ∀ r' ∈ rows.filter fun r => r.selects off, r'.selects off = true :=
    fun _ h => (List.mem_filter.mp h).2
  have hpairwise := hd.filter fun r => r.selects off
  have hne : (rows.filter fun r => r.selects off) ≠ [] := List.ne_nil_of_mem (List.mem_filter.mpr ⟨hmem, hr⟩)
  generalize rows.filter (fun r => r.selects off) = chosen at hselects hpairwise hne
  match chosen with
  | [] => exact absurd rfl hne
  | [_] => rfl
  | a :: b :: _ =>
    have hab : a.Disjoint b := List.rel_of_pairwise_cons hpairwise List.mem_cons_self
    exact absurd (hselects b (by simp)) (hab.not_selects (hselects a (by simp)))

/-- The constructors of `Instr` stand in the order of the opcode table, the six port operations after its rows (rules
R88, R89). -/
theorem opcodeRows_getElem?_ctorIdx (i : Instr) : opcodeRows[i.ctorIdx]? = i.row := by
  cases i <;> rfl

/-- The row of an instruction is one of the opcode table. -/
theorem Instr.row_mem {i : Instr} {r : Row} (h : i.row = some r) : r ∈ opcodeRows :=
  List.mem_of_getElem? ((opcodeRows_getElem?_ctorIdx i).trans h)

/-- Instructions of the same row have the same constructor (rule R88). -/
theorem Instr.ctorIdx_eq_of_row {i j : Instr} {r : Row} (hi : i.row = some r) (hj : j.row = some r) :
    i.ctorIdx = j.ctorIdx := by
  rw [← opcodeRows_getElem?_ctorIdx] at hi hj
  obtain ⟨hlt, -⟩ := List.getElem?_eq_some_iff.mp hi
  exact (List.getElem?_inj hlt opcodeRows_nodup).mp (hi.trans hj.symm)

/-- A well-formed instruction that has a row is encoded at an offset that the row selects (rule R88). -/
theorem encodesItsRow (i : Instr) : Laws.EncodesItsRow.Statement i := by
  cases i with
  | wave0 now i v => exact Laws.EncodesItsRow.wave0 now i v
  | wave1 now i v => exact Laws.EncodesItsRow.wave1 now i v
  | wave2 now i v => exact Laws.EncodesItsRow.wave2 now i v
  | wave3 now i v => exact Laws.EncodesItsRow.wave3 now i v
  | wave4 now i v => exact Laws.EncodesItsRow.wave4 now i v
  | modtbl now i v => exact Laws.EncodesItsRow.modtbl now i v
  | rsvdOdd | rsvdA1 | rsvdTbl | rsvdChregA | rsvdChregB | rsvdSwpslotA | rsvdSwpslotB | rsvdRam5 | rsvdHighA
  | rsvdHighB | rsvdHighC | rsvdHighD | rsvdHighE | rsvdHighF => exact fun hw _ hr => Laws.selects_encodeWrite hr hw
  | advance | reset | setMuted | pause | resume | consume => exact fun _ _ hr => nomatch hr
  | _ => exact fun _ _ hr => Laws.selects_encodeWrite hr rfl

/-- An instruction either has a row and is encoded as a transaction, or is the port operation it is encoded as (rules
R88, R89). -/
theorem encode_cases (i : Instr) :
    (∃ r now off v, i.row = some r ∧ encode i = encodeWrite now off v) ∨
    ((∀ t, encode i ≠ .write t) ∧ decode (encode i) = i) := by
  cases i with
  | advance | reset | setMuted | pause | resume | consume => exact .inr ⟨fun _ h => (nomatch h), rfl⟩
  | _ => exact .inl ⟨_, _, _, _, rfl, rfl⟩

/-- The row of the instruction at an offset selects the offset. -/
theorem StandsAt.row_selects {now : Cycle} {off : Offset} {v : Byte} {i : Instr} (h : StandsAt now off v i) :
    ∃ r, i.row = some r ∧ r.selects off = true := by
  obtain ⟨hwf, he⟩ := h
  rcases encode_cases i with ⟨r, -, -, -, hr, -⟩ | ⟨hne, -⟩
  · obtain ⟨t, ht, hsel⟩ := encodesItsRow i hwf r hr
    cases ht.symm.trans he
    exact ⟨r, hr, by rwa [WriteTransaction.offset, extract_encoded_offset] at hsel⟩
  · exact absurd he (hne _)

/-- At every offset stands an instruction (rule R87). -/
theorem exists_standsAt (now : Cycle) (off : Offset) (v : Byte) : ∃ i, StandsAt now off v i := by
  have h := decodeWrite_standsAt ⟨now, windowBase + off.zeroExtend 32, v.zeroExtend 16⟩
  rw [WriteTransaction.offset, WriteTransaction.operand, extract_encoded_offset, extract_encoded_operand] at h
  exact ⟨_, h⟩

/-- Exactly one row of the opcode table selects an offset: one does, that of the instruction there, and the rows are
disjoint (rules R87, R88). -/
theorem opcodeRows_selects_one (off : Offset) : (opcodeRows.filter fun r => r.selects off).length = 1 := by
  obtain ⟨i, hi⟩ := exists_standsAt 0 off 0
  obtain ⟨r, hr, hsel⟩ := hi.row_selects
  exact length_filter_selects opcodeRows_pairwise_disjoint (Instr.row_mem hr) hsel

/-- Settles O3: the rows are disjoint, and what a transaction decodes to stands at its offset, which its row selects. -/
theorem everyOffsetSelectsOneRow : Obligations.EveryOffsetSelectsOneRow := by
  refine ⟨rfl, opcodeRows_selects_one, fun t => ?_⟩
  obtain ⟨r, hr, hsel⟩ := (decodeWrite_standsAt t).row_selects
  exact ⟨r, Instr.row_mem hr, hsel, hr⟩

/-- The stamp, the offset and the operand of an encoded transaction are those it was encoded from (rule R93). -/
theorem encodeWrite_inj {now now' : Cycle} {off off' : Offset} {v v' : Byte}
    (h : encodeWrite now off v = encodeWrite now' off' v') : now = now' ∧ off = off' ∧ v = v' := by
  obtain ⟨hnow, haddr, hval⟩ := WriteTransaction.mk.inj (PortOp.write.inj h)
  refine ⟨hnow, ?_, ?_⟩
  · rw [← extract_encoded_offset off, haddr, extract_encoded_offset]
  · rw [← extract_encoded_operand v, hval, extract_encoded_operand]

/-- Entries of one table with the same offset are the same (rule R82). -/
theorem entry_eq_of_tableOffset_eq {table : Nat} (ht : table < 6) {i i' : Entry}
    (h : tableOffset table i = tableOffset table i') : i = i' :=
  (Machine.tableOffset_inj (k := ⟨table, ht⟩) (k' := ⟨table, ht⟩) (congrArg BitVec.toNat h)).2

/-- Two instructions of one constructor with the same encoding are equal: the encoding holds every operand. For each
constructor of `i`, `Instr.ctorElim` leaves that of `j` alone. -/
theorem eq_of_ctorIdx_of_encode {i j : Instr} (hc : i.ctorIdx = j.ctorIdx) (he : encode i = encode j) : i = j := by
  revert he
  cases i <;> refine Instr.ctorElim (motive := fun j => encode _ = encode j → _ = j) _ j hc ⟨?_⟩
  case wave0 | wave1 | wave2 | wave3 | wave4 | modtbl =>
    intro _ _ _ he
    obtain ⟨rfl, hoff, rfl⟩ := encodeWrite_inj he
    rw [entry_eq_of_tableOffset_eq (by decide) hoff]
  case rsvdOdd | rsvdA1 | rsvdTbl | rsvdChregA | rsvdChregB | rsvdSwpslotA | rsvdSwpslotB | rsvdRam5 | rsvdHighA
      | rsvdHighB | rsvdHighC | rsvdHighD | rsvdHighE | rsvdHighF =>
    intro _ _ _ he
    obtain ⟨rfl, rfl, rfl⟩ := encodeWrite_inj he
    rfl
  case advance | setMuted =>
    rintro _ ⟨⟩
    rfl
  case reset | pause | resume | consume => exact fun _ => rfl
  all_goals
    intro _ _ he
    obtain ⟨rfl, -, rfl⟩ := encodeWrite_inj he
    rfl

/-- Only one instruction stands at an offset with a given stamp and operand: its row is the one that selects the
offset, and the row and the encoding tell it (rule R88). -/
theorem StandsAt.unique {now : Cycle} {off : Offset} {v : Byte} {i j : Instr} (hi : StandsAt now off v i)
    (hj : StandsAt now off v j) : i = j := by
  obtain ⟨r, hr, hsel⟩ := hi.row_selects
  obtain ⟨r', hr', hsel'⟩ := hj.row_selects
  obtain ⟨a, ha⟩ := List.length_eq_one_iff.mp (opcodeRows_selects_one off)
  have selected {r : Row} (hmem : r ∈ opcodeRows) (hsel : r.selects off = true) : r = a :=
    List.mem_singleton.mp (ha ▸ List.mem_filter.mpr ⟨hmem, hsel⟩)
  rw [selected (Instr.row_mem hr) hsel] at hr
  rw [selected (Instr.row_mem hr') hsel'] at hr'
  exact eq_of_ctorIdx_of_encode (Instr.ctorIdx_eq_of_row hr hr') (hi.2.trans hj.2.symm)

/-- A transaction decodes to the instruction that stands at its offset with its stamp and operand (rule R87). -/
theorem StandsAt.decode_eq {now : Cycle} {off : Offset} {v : Byte} {i : Instr} (h : StandsAt now off v i)
    {address : BitVec 32} {value : BitVec 16} (hoff : address.extractLsb' 0 11 = off)
    (hv : value.extractLsb' 0 8 = v) : decode (.write ⟨now, address, value⟩) = i := by
  subst hoff hv
  exact (decodeWrite_standsAt ⟨now, address, value⟩).unique h

/-- Settles O1: an instruction with a row stands at the offset it is encoded at, where only one instruction stands. -/
theorem decodeOfEncodeIsTheInstruction : Obligations.DecodeOfEncodeIsTheInstruction := by
  intro i hwf
  rcases encode_cases i with ⟨-, now, off, v, -, he⟩ | ⟨-, hport⟩
  · rw [he]
    exact StandsAt.decode_eq ⟨hwf, he⟩ (extract_encoded_offset off) (extract_encoded_operand v)
  · exact hport

/-- Settles O4: at the offset cut out of each word's address, given here, stands the instruction, with the low byte of
the word's value. -/
theorem writtenOutWordsDecode : Obligations.WrittenOutWordsDecode := by
  intro now
  refine ⟨?int2, rfl, rfl, rfl, rfl, ?wave2, ?modtbl, ?swp, ?sstop, ?rsvdRam5⟩
  case int2 => exact StandsAt.decode_eq (off := 0x480) ⟨rfl, rfl⟩ rfl rfl
  case wave2 => exact StandsAt.decode_eq (off := 0x10C) ⟨rfl, rfl⟩ rfl rfl
  case modtbl => exact StandsAt.decode_eq (off := 0x2FC) ⟨rfl, rfl⟩ rfl rfl
  case swp => exact StandsAt.decode_eq (off := 0x51C) ⟨rfl, rfl⟩ rfl rfl
  case sstop => exact StandsAt.decode_eq (off := 0x580) ⟨rfl, rfl⟩ rfl rfl
  case rsvdRam5 => exact StandsAt.decode_eq (off := 0x558) ⟨rfl, rfl⟩ rfl rfl

end Sys2Proof
end

section
/-! PROOFS. What a WRITE does at an offset: nothing at an unaligned one, the catch-up alone at an unmapped one, and at
every aligned one a progress that is its catch-up's (rules R87, R90, R101, R102, R109, R118, R119, R124). -/

namespace Sys2Proof.Machine

/-- The low eleven bits of an address are those of the offset (rule R61). -/
theorem offset_getLsbD (t : WriteTransaction) {k : Nat} (hk : k < 11) : t.offset.getLsbD k = t.address.getLsbD k := by
  simp [WriteTransaction.offset, hk]

/-- Settles O7: the two reserved rows select every unaligned offset, so that one of their instructions stands there, and
neither does anything. -/
theorem unalignedWriteDoesNothing : Obligations.UnalignedWriteDoesNothing := by
  intro t s h
  rw [← offset_getLsbD t (by decide), ← offset_getLsbD t (by decide)] at h
  rcases h with h0 | ⟨h0, h1⟩
  · have hodd : StandsAt t.now t.offset t.operand (.rsvdOdd t.now t.offset t.operand) :=
      ⟨rsvdOdd_selects h0, rfl⟩
    exact congrArg (exec · s) (hodd.decode_eq rfl rfl)
  · have hhalf : StandsAt t.now t.offset t.operand (.rsvdA1 t.now t.offset t.operand) :=
      ⟨rsvdA1_selects h0 h1, rfl⟩
    exact congrArg (exec · s) (hhalf.decode_eq rfl rfl)

/-- The offsets of the six tables and of the registers: six of each channel, RAM of each wave channel, SWP and SSTOP
(rules R82 to R85). -/
inductive Mapped : Offset → Prop where
  | table (k : Nat) (hk : k < 6) (i : Entry) : Mapped (tableOffset k i)
  | reg (c : Chan) (r : Nat) (hr : r < 6) : Mapped (regOffset c r)
  | ram (c : Chan) (hc : c.val < 5) : Mapped (regOffset c 6)
  | swp : Mapped (regOffset 4 7)
  | sstop : Mapped sstopOffset

/-- A register's offset as a number (rule R83). -/
theorem regOffset_toNat (c : Chan) {r : Nat} (hr : r < 16) : (regOffset c r).toNat = 0x400 + 0x40 * c.val + 4 * r := by
  have hc := c.isLt
  rw [regOffset, BitVec.toNat_ofNat]
  omega

/-- Where the mapped offsets lie: in the six tables, in the first eight places of a channel's block (of which the last
belongs to channel 4 alone, and the one before it not to channel 5), or at 0x580 (rules R82 to R85). -/
theorem Mapped.toNat_cases {off : Offset} (h : Mapped off) :
    off.toNat < 0x300 ∨
    (0x400 ≤ off.toNat ∧ off.toNat < 0x580 ∧
      (off.toNat % 0x40 < 0x18 ∨ (off.toNat % 0x40 = 0x18 ∧ off.toNat < 0x540) ∨ off.toNat = 0x51C)) ∨
    off.toNat = 0x580 := by
  cases h with
  | table k hk i =>
    have hoff : (tableOffset k i).toNat = 0x80 * k + 4 * i.toNat := tableOffset_toNat ⟨k, hk⟩ i
    have hi := i.isLt
    omega
  | reg c r hr =>
    have hoff := regOffset_toNat c (r := r) (by omega)
    have hc := c.isLt
    omega
  | ram c hc =>
    have hoff := regOffset_toNat c (r := 6) (by decide)
    omega
  | swp => exact .inr (.inl (by decide))
  | sstop => exact .inr (.inr rfl)

/-- The two reserved rows of rule R101 select no aligned offset. -/
theorem not_selects_of_aligned {off : Offset} (ha : off.toNat % 4 = 0) :
    Row.selects ⟨0x001, 0x001⟩ off ≠ true ∧ Row.selects ⟨0x003, 0x002⟩ off ≠ true := by
  constructor
  · intro h
    have hbit : off.toNat % 2 = 1 :=
      (Nat.and_one_is_mod _).symm.trans (congrArg BitVec.toNat (beq_iff_eq.mp h))
    omega
  · intro h
    have hbits : off.toNat % 4 = 2 :=
      (Nat.and_two_pow_sub_one_eq_mod _ 2).symm.trans (congrArg BitVec.toNat (beq_iff_eq.mp h))
    omega

/-- What the instruction at an aligned offset does: its catch-up by that offset, then the effect of a WRITE, which at an
unmapped offset is none (rules R90, R102, R104 to R119, R123). -/
theorem exec_standsAt {now : Cycle} {off : Offset} {v : Byte} {i : Instr} (h : StandsAt now off v i)
    (ha : off.toNat % 4 = 0) (s : State) :
    ∃ t, exec i s = .next t ∧ WriteEffect (catchUp off now s) t ∧ (Mapped off ∨ t = catchUp off now s) := by
  obtain ⟨hwf, he⟩ := h
  obtain ⟨hodd, hhalf⟩ := not_selects_of_aligned ha
  cases i
  case advance | reset | setMuted | pause | resume | consume => exact nomatch he
  all_goals obtain ⟨rfl, rfl, rfl⟩ := encodeWrite_inj he
  case rsvdOdd => exact absurd hwf hodd
  case rsvdA1 => exact absurd hwf hhalf
  case wave0 => exact ⟨_, rfl, .table 0 _ _ rfl, .inl (.table _ (by decide) _)⟩
  case wave1 => exact ⟨_, rfl, .table 1 _ _ rfl, .inl (.table _ (by decide) _)⟩
  case wave2 => exact ⟨_, rfl, .table 2 _ _ rfl, .inl (.table _ (by decide) _)⟩
  case wave3 => exact ⟨_, rfl, .table 3 _ _ rfl, .inl (.table _ (by decide) _)⟩
  case wave4 => exact ⟨_, rfl, .table 4 _ _ rfl, .inl (.table _ (by decide) _)⟩
  case modtbl => exact ⟨_, rfl, .table 5 _ _ rfl, .inl (.table _ (by decide) _)⟩
  case int0 | int1 | int2 | int3 | int4 | int5 => exact ⟨_, rfl, .int _ _ rfl, .inl (.reg _ _ (by decide))⟩
  case lrv0 | lrv1 | lrv2 | lrv3 | lrv4 | lrv5 => exact ⟨_, rfl, .lrv _ _ rfl, .inl (.reg _ _ (by decide))⟩
  case fql0 | fql1 | fql2 | fql3 | fql4 | fql5 => exact ⟨_, rfl, .fql _ _ rfl, .inl (.reg _ _ (by decide))⟩
  case fqh0 | fqh1 | fqh2 | fqh3 | fqh4 | fqh5 => exact ⟨_, rfl, .fqh _ _ rfl, .inl (.reg _ _ (by decide))⟩
  case ev00 | ev01 | ev02 | ev03 | ev04 | ev05 => exact ⟨_, rfl, .ev0 _ _ rfl, .inl (.reg _ _ (by decide))⟩
  case ev10 | ev11 | ev12 | ev13 | ev14 | ev15 => exact ⟨_, rfl, .ev1 _ _ rfl, .inl (.reg _ _ (by decide))⟩
  case ram0 | ram1 | ram2 | ram3 | ram4 => exact ⟨_, rfl, .ram _ _ rfl, .inl (.ram _ (by decide))⟩
  case swp => exact ⟨_, rfl, .swp _ rfl, .inl .swp⟩
  case sstop v =>
    refine ⟨_, rfl, ?_, .inl .sstop⟩
    cases hv : sstopStop v with
    | true => exact .stop rfl
    | false => exact .none rfl
  all_goals exact ⟨_, rfl, .none rfl, .inr rfl⟩

/-- Settles O8: the instruction at an aligned offset does its catch-up, and stores nothing unless the offset is mapped,
which none of the statement's is. -/
theorem unmappedWriteOnlyCatchesUp : Obligations.UnmappedWriteOnlyCatchesUp := by
  rintro t s off rfl ha hunmapped
  obtain ⟨u, he, -, hmapped | rfl⟩ := exec_standsAt (decodeWrite_standsAt t) ha s
  · have hoff : t.offset = t.address.extractLsb' 0 11 := rfl
    have hplace := hmapped.toNat_cases
    rw [hoff] at hplace
    omega
  · exact he

/-- Settles O9: what the instruction at an aligned offset changes of the progress is its catch-up's change, and the
catch-up is an ADVANCE below the threshold and nothing from it on. -/
theorem alignedWriteProgressIsItsCatchUp : Obligations.AlignedWriteProgressIsItsCatchUp := by
  refine ⟨?_, fun off now s => ⟨advance now s, rfl, fun h => catchUp_below h now, fun h => catchUp_above h now⟩⟩
  rintro t s off rfl h0 h1
  have ha : t.offset.toNat % 4 = 0 := by
    rw [← offset_getLsbD t (by decide), offset_bit, decide_eq_false_iff_not] at h0 h1
    omega
  obtain ⟨u, he, hw, -⟩ := exec_standsAt (decodeWrite_standsAt t) ha s
  have hp : progress u = progress (catchUp t.offset t.now s) := hw.progress_eq
  exact ⟨u, he, fun hlt => hp.trans (congrArg progress (catchUp_below hlt t.now)),
    fun hle => hp.trans (congrArg progress (catchUp_above hle t.now)),
    fun hdefault => hp.trans (congrArg progress (catchUp_eq hdefault t.offset t.now))⟩

end Sys2Proof.Machine
end

section
/-! PROOFS. What a WRITE to the modulation table stores (rules R104, R105, R108). -/

namespace Sys2Proof.Machine

/-- MODTBL is the table write of table 5 (rule R108). -/
theorem exec_modtbl (now : Cycle) (i : Entry) (v : Byte) (s : State) :
    exec (.modtbl now i v) s =
      .next (writeTable (tableOffset 5 i) v (catchUp (tableOffset 5 i) now s)) := rfl

/-- Settles O12: the lock of the statement is that of the model at the entry's offset, which lies in the upper half of
the class with the default bounds, and a table write is known in both its cases. -/
theorem modulationWriteStoresUnlessLocked : Obligations.ModulationWriteStoresUnlessLocked := by
  rintro now i v s u off locked rfl hu hm hlocked
  have hnat : (tableOffset 5 i).toNat = 0x280 + 4 * i.toNat := tableOffset_toNat 5 i
  have hcfg : u.cfg = s.cfg := by rw [hu, catchUp_cfg]
  have hlock : locked ↔ tableLocked u (tableOffset 5 i) = true := by
    rw [hlocked, tableLocked_iff, hnat, hcfg]
  refine ⟨fun hend hsplit => ?defaultBounds, writeTable (tableOffset 5 i) v u, ?exec,
    fun h => writeTable_locked (hlock.mp h) v, fun h => ⟨?same, fun i' hne => ?other, fun w' i' => ?wave,
      writeTable_frame _ v u⟩⟩
  case defaultBounds =>
    have hi := i.isLt
    have hclass : 0x280 + 4 * i.toNat < 0x400 := by omega
    have hupper : ¬ 0x280 + 4 * i.toNat < 0x200 := by omega
    rw [hlocked, hend, hsplit, and_iff_right hclass, or_iff_left fun hlower => hupper hlower.1]
  case exec => rw [exec_modtbl, tableOffset_eq 5 i, hu]
  case same =>
    have hfree : tableLocked u (tableOffset 5 i) = false := by
      rw [hlock] at h
      simpa using h
    exact writeTable_entry_same (k := 5) hm hfree v
  case other => exact writeTable_entry_ne (k := 5) (k' := 5) (fun e => hne (Prod.mk.inj e).2) v u
  case wave =>
    rw [State.wave_eq_entry, State.wave_eq_entry]
    refine writeTable_entry_ne (k := 5) (fun e => ?_) v u
    exact absurd (congrArg Fin.val (Prod.mk.inj e).1) (Nat.ne_of_lt w'.isLt)

end Sys2Proof.Machine
end

section
/-! PROOFS. What a WRITE to a register stores and what it leaves alone, register by register (rules R110 to R117, R120
to R124, R152). -/

namespace Sys2Proof.Machine

/-- A register's offset, counted from that of channel 0's (rule R83). -/
theorem regOffset_eq (c : Chan) (r : Nat) : regOffset c r = BitVec.ofNat 11 (0x400 + 4 * r + 0x40 * c.val) := by
  rw [regOffset, Nat.mul_comm r, Nat.mul_comm c.val, Nat.add_right_comm]

/-! ### The register instructions, by channel -/

theorem exec_intOf (c : Chan) (now : Cycle) (v : Byte) (s : State) :
    exec (intOf c now v) s = .next (writeInt c v (catchUp (regOffset c 0) now s)) := by
  match c with
  | 0 | 1 | 2 | 3 | 4 | 5 => rfl

theorem exec_lrvOf (c : Chan) (now : Cycle) (v : Byte) (s : State) :
    exec (lrvOf c now v) s = .next (writeLrv c v (catchUp (regOffset c 1) now s)) := by
  match c with
  | 0 | 1 | 2 | 3 | 4 | 5 => rfl

theorem exec_fqlOf (c : Chan) (now : Cycle) (v : Byte) (s : State) :
    exec (fqlOf c now v) s = .next (writeFql c v (catchUp (regOffset c 2) now s)) := by
  match c with
  | 0 | 1 | 2 | 3 | 4 | 5 => rfl

theorem exec_fqhOf (c : Chan) (now : Cycle) (v : Byte) (s : State) :
    exec (fqhOf c now v) s = .next (writeFqh c v (catchUp (regOffset c 3) now s)) := by
  match c with
  | 0 | 1 | 2 | 3 | 4 | 5 => rfl

theorem exec_ev0Of (c : Chan) (now : Cycle) (v : Byte) (s : State) :
    exec (ev0Of c now v) s = .next (writeEv0 c v (catchUp (regOffset c 4) now s)) := by
  match c with
  | 0 | 1 | 2 | 3 | 4 | 5 => rfl

theorem exec_ev1Of (c : Chan) (now : Cycle) (v : Byte) (s : State) :
    exec (ev1Of c now v) s = .next (writeEv1 c v (catchUp (regOffset c 5) now s)) := by
  match c with
  | 0 | 1 | 2 | 3 | 4 | 5 => rfl

theorem exec_ramOf (c : WaveChan) (now : Cycle) (v : Byte) (s : State) :
    exec (ramOf c now v) s = .next ((catchUp (regOffset c.castSucc 6) now s).setRam c v) := by
  match c with
  | 0 | 1 | 2 | 3 | 4 => rfl

/-! ### Facts that the registers share -/

/-- A store in a channel changes nothing but the channels. -/
theorem setCh_frame (s : State) (c : Chan) (ch : Channel) : { s.setCh c ch with chan := s.chan } = s := rfl

/-- The gate depends on the enable bit and the envelope value alone (rule R143). -/
theorem gateOpen_congr {s t : State} {c : Chan} (hi : (t.ch c).int = (s.ch c).int)
    (he : (t.ch c).envelopeValue = (s.ch c).envelopeValue) : gateOpen t c = gateOpen s c := by
  rw [gateOpen, gateOpen, enabled, enabled, hi, he]

/-- A channel index other than 4 is not `CH_SWEEP` (rule R5). -/
theorem ne_chSweep {c : Chan} (h : c.val ≠ 4) : c ≠ chSweep := fun e => h (congrArg Fin.val e)

/-- Modulation is enabled by bits 6 and 4 of EV1[4] (rules R12, R26). -/
theorem modulationEnabled_iff (s : State) :
    modulationEnabled s = true ↔ (s.ch 4).ev1.getLsbD 6 = true ∧ (s.ch 4).ev1.getLsbD 4 = true :=
  Bool.and_eq_true_iff

/-! ### INT -/

/-- A period as a number (rules R86, R146). -/
theorem period_eq (s : State) (c : Chan) :
    period s c =
      if c.val = 4 then (2048 - s.sweepFrequency.toNat) * s.cfg.periodMultWave
      else (2048 - (256 * ((s.ch c).fqh.toNat % 8) + (s.ch c).fql.toNat)) *
        (if c.val = 5 then s.cfg.periodMultNoise else s.cfg.periodMultWave) := by
  have hsweep : c = chSweep ↔ c.val = 4 := Fin.ext_iff
  have hnoise : c = chNoise ↔ c.val = 5 := Fin.ext_iff
  unfold period
  rw [freqReg_toNat]
  simp only [hsweep, hnoise]
  split_ifs
  · omega
  all_goals rfl

/-- The extra resets of an INT write change no phase (rules R121, R122). -/
@[simp] theorem restartExtra_phase (c d : Chan) (s : State) : (restartExtra c s).phase d = s.phase d := by
  rcases restartExtra_cases c s with ⟨-, e⟩ | ⟨-, e⟩ | ⟨-, -, e⟩ <;>
    simp [e, restartSweep, State.phase]

/-- An INT write leaves the other channels' phases alone (rules R120, R124). -/
theorem writeInt_phase_ne {c d : Chan} (h : c ≠ d) (v : Byte) (s : State) : (writeInt c v s).phase d = s.phase d := by
  simp [writeInt, h]

/-- An INT write clears a wave channel's phase (rule R120). -/
theorem writeInt_phase_same {c : Chan} (h : c ≠ chNoise) (v : Byte) (s : State) : (writeInt c v s).phase c = 0 := by
  simp [writeInt, h]

/-- An INT write to channel 4 reloads the sweep timer and arms the modulation (rule R121). -/
theorem writeInt_sweep (v : Byte) (s : State) :
    (writeInt chSweep v s).sweepTimer = sweepInterval s.cfg s.swp ∧
    (writeInt chSweep v s).modulationCounter = 0 ∧
    (writeInt chSweep v s).modulationPhase = .armed ∧
    (writeInt chSweep v s).modulationLock = .none := ⟨rfl, rfl, rfl, rfl⟩

/-- An INT write to another channel leaves the sweep and the modulation (rules R121, R124). -/
theorem writeInt_sweep_ne {c : Chan} (h : c ≠ chSweep) (v : Byte) (s : State) :
    (writeInt c v s).sweepTimer = s.sweepTimer ∧
    (writeInt c v s).modulationCounter = s.modulationCounter ∧
    (writeInt c v s).modulationPhase = s.modulationPhase ∧
    (writeInt c v s).modulationLock = s.modulationLock := by
  rcases restartExtra_cases c (s.setCh c { s.ch c with int := v }) with ⟨h4, -⟩ | ⟨-, e⟩ | ⟨-, -, e⟩
  · exact absurd h4 h
  · simp [writeInt, e]
  · simp [writeInt, e]

/-- An INT write resets the LFSR for channel 5 alone (rule R122). -/
theorem writeInt_noiseShift (c : Chan) (v : Byte) (s : State) :
    (writeInt c v s).noiseShift = if c.val = 5 then 0 else s.noiseShift := by
  split
  case isTrue h =>
    obtain rfl : c = chNoise := Fin.ext h
    rfl
  case isFalse h => exact writeInt_noiseShift_ne (fun e => h (congrArg Fin.val e)) v s

/-- An INT write changes nothing but the channels, the phases, the sweep's and the modulation's counters and the LFSR
(rules R110, R120 to R122, R124). -/
theorem writeInt_frame (c : Chan) (v : Byte) (s : State) :
    { writeInt c v s with
      chan := s.chan, samplePhase := s.samplePhase, sweepTimer := s.sweepTimer
      modulationCounter := s.modulationCounter, modulationPhase := s.modulationPhase
      modulationLock := s.modulationLock, noiseShift := s.noiseShift } = s := by
  unfold writeInt
  rcases restartExtra_cases c (s.setCh c { s.ch c with int := v }) with ⟨-, e⟩ | ⟨-, e⟩ | ⟨-, -, e⟩ <;>
    simp [e, restartSweep]

/-- Settles O13: each clause is what the INT write does to one part of the state. -/
theorem intWriteRestartsTheChannel : Obligations.IntWriteRestartsTheChannel := by
  intro c now v s u hu
  have hexec : exec (intOf c now v) s = .next (writeInt c v u) := by rw [exec_intOf, regOffset_eq, hu]
  refine ⟨_, hexec, ?channel, fun d hd => ⟨writeInt_ch_ne hd.symm v u, writeInt_phase_ne hd.symm v u⟩,
    fun hc => writeInt_phase_same (fun e => ?wave) v u, fun hc => ?sweep,
    fun hc => writeInt_sweep_ne (ne_chSweep hc) v u, writeInt_noiseShift c v u, writeInt_frame c v u⟩
  case channel => rw [writeInt_ch, intInterval_eq, period_eq]
  case wave =>
    have h5 : c.val = 5 := congrArg Fin.val e
    omega
  case sweep =>
    obtain rfl : c = chSweep := Fin.ext hc
    rw [← sweepInterval_eq]
    exact writeInt_sweep v u

/-! ### LRV -/

/-- LRV bits 7:4 as a number of four bits (rule R22). -/
theorem panL_eq (b : Byte) : panL b = BitVec.ofNat 4 (b.toNat / 16) := by
  rw [← panL_toNat, BitVec.ofNat_toNat, BitVec.setWidth_eq]

/-- LRV bits 3:0 as a number of four bits (rule R22). -/
theorem panR_eq (b : Byte) : panR b = BitVec.ofNat 4 (b.toNat % 16) := by
  rw [← panR_toNat, BitVec.ofNat_toNat, BitVec.setWidth_eq]

/-- A side whose pan is 0 is silent (rule R155). -/
theorem gain_pan_zero (e : BitVec 4) : gain e 0 = 0 := by
  simp [gain]

/-- Settles O14: the store keeps the enable bit and the envelope value, which with the pan are all that the gate and the
gains read. -/
theorem lrvWriteStoresThePan : Obligations.LrvWriteStoresThePan := by
  intro c now v s u hu
  have hexec : exec (lrvOf c now v) s = .next (writeLrv c v u) := by rw [exec_lrvOf, regOffset_eq, hu]
  have hch : (writeLrv c v u).ch c = { u.ch c with lrv := v } := ch_setCh_same u c _
  have hL : gainL (writeLrv c v u) c = gain (u.ch c).envelopeValue (BitVec.ofNat 4 (v.toNat / 16)) := by
    rw [gainL, hch, panL_eq]
  have hR : gainR (writeLrv c v u) c = gain (u.ch c).envelopeValue (BitVec.ofNat 4 (v.toNat % 16)) := by
    rw [gainR, hch, panR_eq]
  refine ⟨_, hexec, hch, fun d hd => ch_setCh_ne u hd.symm _, setCh_frame u c _,
    gateOpen_congr (by rw [hch]) (by rw [hch]), hL, hR, fun h => ?left, fun h => ?right⟩
  case left => rw [hL, h]; exact gain_pan_zero _
  case right => rw [hR, h]; exact gain_pan_zero _

/-! ### FQL and FQH -/

/-- An FQL write to another channel than 4 is the store alone (rule R112). -/
theorem writeFql_ne {c : Chan} (h : c ≠ chSweep) (v : Byte) (s : State) :
    writeFql c v s = s.setCh c { s.ch c with fql := v } :=
  if_neg h

/-- An FQH write to another channel than 4 is the store alone (rule R113). -/
theorem writeFqh_ne {c : Chan} (h : c ≠ chSweep) (v : Byte) (s : State) :
    writeFqh c v s = s.setCh c { s.ch c with fqh := v } :=
  if_neg h

/-- An FQL write to channel 4 replaces the low byte of the sweep frequency (rule R112). -/
theorem writeFql_sweepFrequency (v : Byte) (s : State) :
    (writeFql chSweep v s).sweepFrequency.toNat = 256 * (s.sweepFrequency.toNat / 256) + v.toNat := by
  have hlt := s.sweepFrequency.isLt
  have hhigh : (s.sweepFrequency.extractLsb' 8 3).toNat = s.sweepFrequency.toNat / 256 := by
    rw [BitVec.extractLsb'_toNat, Nat.shiftRight_eq_div_pow]
    omega
  have happend : (writeFql chSweep v s).sweepFrequency = s.sweepFrequency.extractLsb' 8 3 ++ v := rfl
  rw [happend, append_byte_toNat, hhigh]

/-- An FQH write to channel 4 replaces bits 10:8 of the sweep frequency (rule R113). -/
theorem writeFqh_sweepFrequency (v : Byte) (s : State) :
    (writeFqh chSweep v s).sweepFrequency.toNat = 256 * (v.toNat % 8) + s.sweepFrequency.toNat % 256 := by
  have hlow : (s.sweepFrequency.extractLsb' 0 8).toNat = s.sweepFrequency.toNat % 256 :=
    BitVec.extractLsb'_toNat ..
  have happend : (writeFqh chSweep v s).sweepFrequency = freqHigh v ++ s.sweepFrequency.extractLsb' 0 8 := rfl
  rw [happend, append_byte_toNat, freqHigh_toNat, hlow]

/-- A store in a register other than EV1 leaves modulation enabled or not (rule R12). -/
theorem modulationEnabled_setCh {s : State} {c : Chan} {ch : Channel} (h : ch.ev1 = (s.ch c).ev1) :
    modulationEnabled (s.setCh c ch) = modulationEnabled s := by
  rw [modulationEnabled, modulationEnabled, ev1_ch_setCh h]

/-- An FQL write to channel 4 records `lowByte` while modulation is enabled (rules R42, R112). -/
theorem writeFql_modulationLock (v : Byte) (s : State) :
    (writeFql chSweep v s).modulationLock = if modulationEnabled s = true then .lowByte else s.modulationLock := by
  have hmod : modulationEnabled (s.setCh chSweep { s.ch chSweep with fql := v }) = modulationEnabled s :=
    modulationEnabled_setCh rfl
  rw [← hmod]
  rfl

/-- An FQH write to channel 4 records `highByte` while modulation is enabled (rules R42, R113). -/
theorem writeFqh_modulationLock (v : Byte) (s : State) :
    (writeFqh chSweep v s).modulationLock = if modulationEnabled s = true then .highByte else s.modulationLock := by
  have hmod : modulationEnabled (s.setCh chSweep { s.ch chSweep with fqh := v }) = modulationEnabled s :=
    modulationEnabled_setCh rfl
  rw [← hmod]
  rfl

/-- Settles O15: for channel 4 the three parts of the state that the write changes, for another channel the store. -/
theorem fqlWriteStoresTheLowByte : Obligations.FqlWriteStoresTheLowByte := by
  intro c now v s u hu
  have hexec : exec (fqlOf c now v) s = .next (writeFql c v u) := by rw [exec_fqlOf, regOffset_eq, hu]
  refine ⟨_, hexec, ?same, fun d hd => ?other, fun hc => ?store, fun hc => ?sweep⟩
  case same => rw [writeFql_ch, ch_setCh_same]
  case other => rw [writeFql_ch, ch_setCh_ne u hd.symm]
  case store => rw [writeFql_ne (ne_chSweep hc)]; exact setCh_frame u c _
  case sweep =>
    obtain rfl : c = chSweep := Fin.ext hc
    simp only [← modulationEnabled_iff]
    exact ⟨writeFql_sweepFrequency v u, writeFql_modulationLock v u, rfl⟩

/-- Settles O16: for channel 4 the three parts of the state that the write changes, for another channel the store. -/
theorem fqhWriteStoresTheHighBits : Obligations.FqhWriteStoresTheHighBits := by
  intro c now v s u hu
  have hexec : exec (fqhOf c now v) s = .next (writeFqh c v u) := by rw [exec_fqhOf, regOffset_eq, hu]
  refine ⟨_, hexec, ?same, fun d hd => ?other, fun hc => ?store, fun hc => ?sweep⟩
  case same => rw [writeFqh_ch, ch_setCh_same]
  case other => rw [writeFqh_ch, ch_setCh_ne u hd.symm]
  case store => rw [writeFqh_ne (ne_chSweep hc)]; exact setCh_frame u c _
  case sweep =>
    obtain rfl : c = chSweep := Fin.ext hc
    simp only [← modulationEnabled_iff]
    exact ⟨writeFqh_sweepFrequency v u, writeFqh_modulationLock v u, rfl⟩

/-! ### EV0 and EV1 -/

/-- A channel with no envelope is silent, enabled or not (rule R143). -/
theorem gateOpen_of_envelope_zero {s : State} {c : Chan} (h : (s.ch c).envelopeValue = 0) : gateOpen s c = false := by
  simp [gateOpen, h]

/-- Settles O17: one store in the channel, which keeps INT; an envelope latched from a nibble of 0 closes the gate. -/
theorem ev0WriteLatchesTheEnvelope : Obligations.Ev0WriteLatchesTheEnvelope := by
  intro c now v s u hu
  have hexec : exec (ev0Of c now v) s = .next (writeEv0 c v u) := by rw [exec_ev0Of, regOffset_eq, hu]
  have hch : (writeEv0 c v u).ch c = { u.ch c with
      ev0 := v, envelopeValue := BitVec.ofNat 4 (v.toNat / 16), envelopeFrozen := false } := by
    rw [← envInit_eq]
    exact ch_setCh_same u c _
  refine ⟨_, hexec, hch, fun d hd => ch_setCh_ne u hd.symm _, setCh_frame u c _, fun h => ⟨?gate, ?enabled⟩⟩
  case gate => exact gateOpen_of_envelope_zero (by rw [hch]; exact congrArg (BitVec.ofNat 4) h)
  case enabled => rw [enabled, enabled, hch]

/-- An EV1 write resets the LFSR for channel 5 alone (rule R115). -/
theorem writeEv1_noiseShift (c : Chan) (v : Byte) (s : State) :
    (writeEv1 c v s).noiseShift = if c.val = 5 then 0 else s.noiseShift := by
  have hnoise : c = chNoise ↔ c.val = 5 := Fin.ext_iff
  unfold writeEv1
  dsimp only
  simp only [hnoise]
  split <;> rfl

/-- An EV1 write changes nothing but the channels and the LFSR (rules R115, R124). -/
theorem writeEv1_frame (c : Chan) (v : Byte) (s : State) :
    { writeEv1 c v s with chan := s.chan, noiseShift := s.noiseShift } = s := by
  unfold writeEv1
  dsimp only
  split <;> rfl

/-- Settles O18: the store, and for channel 5 the reset of the LFSR. -/
theorem ev1WriteStoresAndResetsTheNoise : Obligations.Ev1WriteStoresAndResetsTheNoise := by
  intro c now v s u hu
  have hexec : exec (ev1Of c now v) s = .next (writeEv1 c v u) := by rw [exec_ev1Of, regOffset_eq, hu]
  refine ⟨_, hexec, ?same, fun d hd => ?other, writeEv1_noiseShift c v u, writeEv1_frame c v u⟩
  case same => rw [writeEv1_ch, ch_setCh_same]
  case other => rw [writeEv1_ch, ch_setCh_ne u hd.symm]

/-! ### RAM -/

/-- A RAM register after a store in one of them. -/
theorem setRam_getElem (s : State) (c d : WaveChan) (v : Byte) :
    (s.setRam c v).ram[d] = if c = d then v else s.ram[d] := by
  simp [State.setRam, Vector.getElem_set, Fin.ext_iff]

/-- The level of a wave channel, by its wave select (rule R152). -/
theorem level_castSucc (s : State) (c : WaveChan) :
    level s c.castSucc =
      if h : (waveSel s.ram[c]).toNat < 5 then
        waveLevel (s.wave ⟨(waveSel s.ram[c]).toNat, h⟩ (s.phase c.castSucc))
      else 0 := by
  have hwave : c.castSucc ≠ chNoise := fun e => absurd (congrArg Fin.val e) (Nat.ne_of_lt c.isLt)
  have hram : s.ramAt c.castSucc = s.ram[c] := dif_pos c.isLt
  unfold level
  rw [if_neg hwave, hram]

/-- A select of 5 or more has level 0 (rule R152). -/
theorem level_of_select_ge {s : State} {c : WaveChan} (h : 5 ≤ s.ram[c].toNat % 16) : level s c.castSucc = 0 := by
  rw [← waveSel_toNat] at h
  rw [level_castSucc]
  exact dif_neg (Nat.not_lt.mpr h)

/-- A select of a wave table reads that table at the channel's phase (rule R152). -/
theorem level_of_select {s : State} {c w : WaveChan} (h : s.ram[c].toNat % 16 = w.val) :
    level s c.castSucc = (s.wave w (s.phase c.castSucc)).toNat % 64 := by
  rw [← waveSel_toNat] at h
  have hlt : (waveSel s.ram[c]).toNat < 5 := h ▸ w.isLt
  have hw : (⟨(waveSel s.ram[c]).toNat, hlt⟩ : WaveChan) = w := Fin.ext h
  rw [level_castSucc, dif_pos hlt, hw, waveLevel_eq]

/-- Settles O19: the store keeps the tables and the phase, which with the select are all that the level reads. -/
theorem ramWriteSelectsTheWave : Obligations.RamWriteSelectsTheWave := by
  intro c now v s u hu
  have hexec : exec (ramOf c now v) s = .next (u.setRam c v) := by
    rw [exec_ramOf, regOffset_eq, hu]
    rfl
  have hram : (u.setRam c v).ram[c] = v := by rw [setRam_getElem, if_pos rfl]
  refine ⟨_, hexec, hram, fun d hd => ?other, rfl, fun h => ?silent, fun w hw => ?wave⟩
  case other => rw [setRam_getElem, if_neg hd.symm]
  case silent => exact level_of_select_ge (by rw [hram]; exact h)
  case wave => exact level_of_select (by rw [hram]; exact hw)

/-! ### SWP and SSTOP -/

/-- SSTOP performs the stop action when bit 0 of its operand is set, and nothing after its catch-up otherwise (rule
R123). -/
theorem exec_sstop (now : Cycle) (v : Byte) (s : State) :
    exec (.sstop now v) s =
      .next (if v.getLsbD 0 then stopAll (catchUp 0x580 now s) else catchUp 0x580 now s) := rfl

/-- Settles O20: SWP is a store; SSTOP is the stop action or nothing, by its bit 0. -/
theorem swpStoresAndSstopDisables : Obligations.SwpStoresAndSstopDisables := by
  intro now v s u
  constructor
  · rintro rfl
    rfl
  · rintro rfl
    refine ⟨_, exec_sstop now v s, fun h => ?idle, fun h => ?stop⟩
    case idle => rw [h]; rfl
    case stop =>
      rw [if_pos h]
      refine ⟨fun c => ⟨stopAll_ch _ c, ?_⟩, rfl⟩
      rw [enabled, stopAll_ch]
      exact clearEnable_disabled _

end Sys2Proof.Machine
end

section
/-! PROOFS. The channels do not interact: what a channel's part of a sample reads, and the mix as the sum of six
contributions (rules R142, R157, R158, R161). -/

namespace Sys2Proof.Machine

/-- Two states that agree in all that the part of channel `c` in a sample reads: its registers and its timer, what its
period, its level and its tick depend on, and the length of the window (rules R142 to R155). -/
structure AgreeOn (c : Chan) (s t : State) : Prop where
  cfg : t.cfg = s.cfg
  ram : t.ram = s.ram
  mem : t.mem = s.mem
  sweep : t.sweepFrequency = s.sweepFrequency
  ch : t.ch c = s.ch c
  phase : t.phase c = s.phase c
  noise : c = chNoise → t.noiseShift = s.noiseShift

theorem AgreeOn.refl (c : Chan) (s : State) : AgreeOn c s s := ⟨rfl, rfl, rfl, rfl, rfl, rfl, fun _ => rfl⟩

theorem AgreeOn.trans {c : Chan} {s t u : State} (h : AgreeOn c s t) (k : AgreeOn c t u) : AgreeOn c s u :=
  ⟨k.cfg.trans h.cfg, k.ram.trans h.ram, k.mem.trans h.mem, k.sweep.trans h.sweep, k.ch.trans h.ch,
    k.phase.trans h.phase, fun e => (k.noise e).trans (h.noise e)⟩

theorem AgreeOn.gateOpen {c : Chan} {s t : State} (h : AgreeOn c s t) : gateOpen t c = gateOpen s c := by
  simp only [Machine.gateOpen, enabled, h.ch]

theorem AgreeOn.period {c : Chan} {s t : State} (h : AgreeOn c s t) : period t c = period s c :=
  period_congr h.cfg (by rw [h.ch]) h.sweep

theorem AgreeOn.gainL {c : Chan} {s t : State} (h : AgreeOn c s t) : gainL t c = gainL s c := by
  simp only [Machine.gainL, h.ch]

theorem AgreeOn.gainR {c : Chan} {s t : State} (h : AgreeOn c s t) : gainR t c = gainR s c := by
  simp only [Machine.gainR, h.ch]

/-- The noise channel reads the LFSR, a wave channel its select, its phase and the tables (rules R152, R153). -/
theorem AgreeOn.level {c : Chan} {s t : State} (h : AgreeOn c s t) : level t c = level s c := by
  unfold Machine.level
  by_cases hc : c = chNoise
  · simp only [if_pos hc, h.noise hc, h.cfg]
  · have hram : t.ramAt c = s.ramAt c := by simp only [State.ramAt, h.ram]
    have hwave : t.wave = s.wave := by funext w i; simp only [State.wave, h.mem]
    rw [if_neg hc, if_neg hc, hram, hwave, h.phase]

theorem AgreeOn.setTimer {c : Chan} {s t : State} (h : AgreeOn c s t) (n : Nat) :
    AgreeOn c (setTimer c n s) (setTimer c n t) :=
  ⟨h.cfg, h.ram, h.mem, h.sweep, by rw [ch_setTimer_same, ch_setTimer_same, h.ch], h.phase, h.noise⟩

theorem AgreeOn.channelTick {c : Chan} {s t : State} (h : AgreeOn c s t) :
    AgreeOn c (channelTick c s) (channelTick c t) := by
  by_cases hc : c = chNoise
  · subst hc
    refine ⟨h.cfg, h.ram, h.mem, h.sweep, h.ch, h.phase, fun _ => ?_⟩
    show lfsrShift _ _ _ = lfsrShift _ _ _
    rw [h.cfg, h.ch, h.noise rfl]
  · unfold Machine.channelTick
    rw [if_neg hc, if_neg hc]
    exact ⟨by simp [h.cfg], by simp [h.ram], by simp [h.mem], by simp [h.sweep], by simp [h.ch],
      by simp [hc, h.phase], fun e => absurd e hc⟩

theorem AgreeOn.tickAndReload {c : Chan} {s t : State} (h : AgreeOn c s t) :
    AgreeOn c (tickAndReload c s) (tickAndReload c t) := by
  rw [tickAndReload_eq, tickAndReload_eq, h.period]
  exact h.channelTick.setTimer _

theorem AgreeOn.ticksInside {c : Chan} {s t : State} (h : AgreeOn c s t) (fuel rem : Nat) :
    (ticksInside fuel c rem t).1 = (ticksInside fuel c rem s).1 ∧
      AgreeOn c (ticksInside fuel c rem s).2 (ticksInside fuel c rem t).2 := by
  induction fuel generalizing rem s t with
  | zero => exact ⟨rfl, h⟩
  | succ fuel ih =>
    unfold Machine.ticksInside
    rw [h.ch]
    dsimp only
    split
    · exact ih h.tickAndReload _
    · exact ⟨rfl, h⟩

theorem AgreeOn.windowEnd {c : Chan} {s t : State} (h : AgreeOn c s t) (rem : Nat) :
    AgreeOn c (windowEnd c rem s) (windowEnd c rem t) := by
  unfold Machine.windowEnd
  rw [h.ch]
  dsimp only
  split
  · exact (h.setTimer _).tickAndReload
  · exact h.setTimer _

/-- What a channel adds, and what becomes of it, is a matter of what it reads (rules R142, R157). -/
theorem AgreeOn.stepChannel {c : Chan} {s t : State} (h : AgreeOn c s t) (l r : Nat) :
    (stepChannel ⟨l, r, t⟩ c).accL = (stepChannel ⟨l, r, s⟩ c).accL ∧
      (stepChannel ⟨l, r, t⟩ c).accR = (stepChannel ⟨l, r, s⟩ c).accR ∧
      AgreeOn c (stepChannel ⟨l, r, s⟩ c).st (stepChannel ⟨l, r, t⟩ c).st := by
  unfold Machine.stepChannel
  dsimp only
  rw [h.gateOpen, h.cfg]
  split
  · obtain ⟨hrem, hag⟩ := h.ticksInside (s.cfg.cps + 1) s.cfg.cps
    rw [hrem, hag.level, hag.gainL, hag.gainR]
    exact ⟨rfl, rfl, hag.windowEnd _⟩
  · exact ⟨rfl, rfl, h⟩

/-- The sums a channel finds are only added to (rule R157). -/
theorem stepChannel_add (l r : Nat) (s : State) (c : Chan) :
    stepChannel ⟨l, r, s⟩ c =
      ⟨l + (stepChannel ⟨0, 0, s⟩ c).accL, r + (stepChannel ⟨0, 0, s⟩ c).accR, (stepChannel ⟨0, 0, s⟩ c).st⟩ := by
  unfold stepChannel
  dsimp only
  split
  · simp only [Nat.zero_add]
  · rfl

/-- One channel's part of a sample is nothing that another one reads (rules R142, R161). -/
theorem stepChannel_agreeOn_ne {c d : Chan} (h : d ≠ c) (m : Mix) : AgreeOn d m.st (stepChannel m c).st := by
  refine ⟨by simp, by simp, by simp, by simp, ?_, stepChannel_phase_ne h.symm, ?_⟩
  · obtain ⟨n, e, hn⟩ := stepChannel_ch m c d
    rw [e, hn h]
  · rintro rfl
    exact stepChannel_noise_ne h.symm

/-- Different channels, in any order, add up what each would add alone, and each ends as it would alone (rules R142,
R157). -/
theorem foldl_stepChannel {cs : List Chan} (hcs : cs.Nodup) (m : Mix) :
    (cs.foldl stepChannel m).accL = m.accL + (cs.map fun c => (stepChannel ⟨0, 0, m.st⟩ c).accL).sum ∧
    (cs.foldl stepChannel m).accR = m.accR + (cs.map fun c => (stepChannel ⟨0, 0, m.st⟩ c).accR).sum ∧
    (∀ d ∉ cs, AgreeOn d m.st (cs.foldl stepChannel m).st) ∧
    (∀ d ∈ cs, AgreeOn d (stepChannel ⟨0, 0, m.st⟩ d).st (cs.foldl stepChannel m).st) := by
  induction cs generalizing m with
  | nil => exact ⟨rfl, rfl, fun d _ => .refl d _, fun d hd => absurd hd List.not_mem_nil⟩
  | cons c cs ih =>
    obtain ⟨hc, hcs⟩ := List.nodup_cons.mp hcs
    obtain ⟨hl, hr, hout, hin⟩ := ih hcs (stepChannel m c)
    have halone := stepChannel_add m.accL m.accR m.st c
    have hlater : ∀ d ∈ cs, AgreeOn d m.st (stepChannel m c).st := fun d hd =>
      stepChannel_agreeOn_ne (ne_of_mem_of_not_mem hd hc) m
    have hlmap : (cs.map fun d => (stepChannel ⟨0, 0, (stepChannel m c).st⟩ d).accL) =
        cs.map fun d => (stepChannel ⟨0, 0, m.st⟩ d).accL :=
      List.map_congr_left fun d hd => ((hlater d hd).stepChannel 0 0).1
    have hrmap : (cs.map fun d => (stepChannel ⟨0, 0, (stepChannel m c).st⟩ d).accR) =
        cs.map fun d => (stepChannel ⟨0, 0, m.st⟩ d).accR :=
      List.map_congr_left fun d hd => ((hlater d hd).stepChannel 0 0).2.1
    rw [List.foldl_cons, hl, hr, hlmap, hrmap, List.map_cons, List.map_cons, List.sum_cons, List.sum_cons,
      ← Nat.add_assoc, ← Nat.add_assoc]
    refine ⟨congrArg (· + _) (congrArg Mix.accL halone), congrArg (· + _) (congrArg Mix.accR halone),
      fun d hd => ?others, fun d hd => ?ofList⟩
    case others =>
      obtain ⟨hdc, hd⟩ := not_or.mp (mt List.mem_cons.mpr hd)
      exact (stepChannel_agreeOn_ne hdc m).trans (hout d hd)
    case ofList =>
      rcases List.mem_cons.mp hd with rfl | hd
      · have hst := congrArg Mix.st halone
        dsimp only at hst
        rw [← hst]
        exact hout d hc
      · obtain ⟨-, -, hag⟩ := (hlater d hd).stepChannel 0 0
        exact hag.trans (hin d hd)

/-- The left sum of a sample (rule R157). -/
theorem mixChannels_accL (s : State) : (mixChannels s).accL = ∑ c : Chan, (stepChannel ⟨0, 0, s⟩ c).accL := by
  obtain ⟨hl, -⟩ := foldl_stepChannel (cs := [0, 1, 2, 3, 4, 5]) (by decide) ⟨0, 0, s⟩
  exact hl.trans (by simp [Fin.sum_univ_six, Nat.add_assoc])

/-- The right sum of a sample (rule R157). -/
theorem mixChannels_accR (s : State) : (mixChannels s).accR = ∑ c : Chan, (stepChannel ⟨0, 0, s⟩ c).accR := by
  obtain ⟨-, hr, -⟩ := foldl_stepChannel (cs := [0, 1, 2, 3, 4, 5]) (by decide) ⟨0, 0, s⟩
  exact hr.trans (by simp [Fin.sum_univ_six, Nat.add_assoc])

/-- After the mix a channel is as it would be alone (rule R142). -/
theorem mixChannels_agreeOn (s : State) (c : Chan) :
    AgreeOn c (stepChannel ⟨0, 0, s⟩ c).st (mixChannels s).st := by
  obtain ⟨-, -, -, h⟩ := foldl_stepChannel (cs := [0, 1, 2, 3, 4, 5]) (by decide) ⟨0, 0, s⟩
  refine h c ?_
  revert c
  decide

/-- A channel tick writes the phases and the LFSR alone (rules R150, R151). -/
theorem channelTick_frame (c : Chan) (s : State) (p : Vector Entry 5) (x : BitVec 15) :
    { channelTick c s with samplePhase := p, noiseShift := x } = { s with samplePhase := p, noiseShift := x } := by
  unfold channelTick State.setPhase
  split
  · rfl
  · split <;> rfl

/-- A channel's part of a sample writes the channels, the phases and the LFSR alone (rules R142, R161). -/
theorem stepChannel_frame (m : Mix) (c : Chan) (v : Vector Channel 6) (p : Vector Entry 5) (x : BitVec 15) :
    { (stepChannel m c).st with chan := v, samplePhase := p, noiseShift := x } =
      { m.st with chan := v, samplePhase := p, noiseShift := x } := by
  have hticks : ∀ k, { (channelTick c)^[k] m.st with samplePhase := p, noiseShift := x } =
      { m.st with samplePhase := p, noiseShift := x } := by
    intro k
    induction k with
    | zero => rfl
    | succ k ih => rw [Function.iterate_succ_apply', channelTick_frame, ih]
  obtain ⟨k, n, e⟩ := stepChannel_shape m c
  rw [e]
  exact congrArg (fun u : State => { u with chan := v }) (hticks k)

/-- The mix writes the channels, the phases and the LFSR alone (rules R142, R161). -/
theorem mixChannels_frame (s : State) :
    { (mixChannels s).st with chan := s.chan, samplePhase := s.samplePhase, noiseShift := s.noiseShift } = s :=
  mixChannels_keeps
    (P := fun u => { u with chan := s.chan, samplePhase := s.samplePhase, noiseShift := s.noiseShift } = s)
    (fun m c h => (stepChannel_frame m c _ _ _).trans h) rfl

/-- Settles O32: a channel's part reads nothing that another one writes, so the six fold as if each were alone. -/
theorem mixSumsTheSixChannels : Obligations.MixSumsTheSixChannels := by
  intro s
  refine ⟨mixChannels_accL s, mixChannels_accR s, fun l r c => ?_,
    fun c => ⟨(mixChannels_agreeOn s c).ch, (mixChannels_agreeOn s c).phase⟩,
    (mixChannels_agreeOn s 5).noise rfl, mixChannels_frame s⟩
  rw [stepChannel_add]
  exact ⟨rfl, rfl, rfl⟩

/-- Six contributions of at most 63 × 29 (rule R157). -/
theorem mixChannels_acc_le {s : State} (h : s.cfg.noiseMax ≤ 63) :
    (mixChannels s).accL ≤ 10962 ∧ (mixChannels s).accR ≤ 10962 := by
  have hone : ∀ c ∈ Finset.univ (α := Chan),
      (stepChannel ⟨0, 0, s⟩ c).accL ≤ 1827 ∧ (stepChannel ⟨0, 0, s⟩ c).accR ≤ 1827 := fun c _ => by
    simpa using stepChannel_acc_le (m := ⟨0, 0, s⟩) h c
  rw [mixChannels_accL, mixChannels_accR]
  exact ⟨Finset.sum_le_card_nsmul _ _ _ fun c hc => (hone c hc).1,
    Finset.sum_le_card_nsmul _ _ _ fun c hc => (hone c hc).2⟩

/-- Settles O33: a sum of at most 10962 is below 65536. -/
theorem rawMixFitsItsLane : Obligations.RawMixFitsItsLane := by
  intro s h
  obtain ⟨hL, hR⟩ := mixChannels_acc_le h
  have hfits : ∀ n, n ≤ 10962 → (zext16 n).toNat = n := fun n hn => by
    rw [zext16, BitVec.toNat_ofNat]
    exact Nat.mod_eq_of_lt (by omega)
  exact ⟨hL, hR, hfits _ hL, hfits _ hR⟩

end Sys2Proof.Machine
end

section
/-! PROOFS. Periods, levels and gains as numbers, and what one channel tick does (rules R146, R150 to R156). -/

namespace Sys2Proof.Machine

/-- Of an 11-bit frequency at least 1 and at most 2048 remain (rule R146). -/
theorem freq_rest_range (x : BitVec 11) : 1 ≤ 2048 - x.toNat ∧ 2048 - x.toNat ≤ 2048 := by
  have := x.isLt
  omega

/-- The period of a wave channel is 1 to 2048 times its multiplier (rule R146). -/
theorem period_wave_range (s : State) {c : Chan} (hc : c.val ≤ 4) :
    s.cfg.periodMultWave ≤ period s c ∧ period s c ≤ 2048 * s.cfg.periodMultWave := by
  have hrange : ∀ x : BitVec 11, s.cfg.periodMultWave ≤ (2048 - x.toNat) * s.cfg.periodMultWave ∧
      (2048 - x.toNat) * s.cfg.periodMultWave ≤ 2048 * s.cfg.periodMultWave := fun x =>
    ⟨Nat.le_mul_of_pos_left _ (freq_rest_range x).1, Nat.mul_le_mul_right _ (freq_rest_range x).2⟩
  have hwave : c ≠ chNoise := fun e => by rw [e] at hc; exact absurd hc (by decide)
  unfold period
  rw [if_neg hwave]
  split <;> exact hrange _

/-- The period of the noise channel is 1 to 2048 times its multiplier (rule R146). -/
theorem period_noise_range (s : State) :
    s.cfg.periodMultNoise ≤ period s chNoise ∧ period s chNoise ≤ 2048 * s.cfg.periodMultNoise :=
  ⟨Nat.le_mul_of_pos_left _ (freq_rest_range _).1, Nat.mul_le_mul_right _ (freq_rest_range _).2⟩

/-- Settles O26: the period as a number, by channel, and the rest of an 11-bit frequency times the multiplier. -/
theorem periodFollowsTheFrequency : Obligations.PeriodFollowsTheFrequency := by
  intro s c
  refine ⟨fun h => ?tone, fun h => ?sweep, fun h => ?noise, by rw [tickAndReload_eq, ch_setTimer_same],
    fun hm h => ?waveRange, fun hm h => ?noiseRange⟩
  case tone => rw [period_eq, if_neg (by omega), if_neg (by omega)]
  case sweep => rw [period_eq, if_pos h]
  case noise => rw [period_eq, if_neg (by omega), if_pos h]
  case waveRange =>
    have := period_wave_range s h
    omega
  case noiseRange =>
    obtain rfl : c = chNoise := Fin.ext h
    have := period_noise_range s
    omega

/-- The noise level is `NOISE_MAX` while the LFSR is below 2^14, so while its bit 14 is 0 (rule R153). -/
theorem level_noise (s : State) :
    level s chNoise = if s.noiseShift.toNat < 16384 then s.cfg.noiseMax else 0 := by
  have hbit : s.noiseShift.getLsbD 14 = decide (16384 ≤ s.noiseShift.toNat) := BitVec.msb_eq_decide s.noiseShift
  unfold level
  rw [if_pos rfl, hbit]
  by_cases h : s.noiseShift.toNat < 16384
  · rw [if_pos h, decide_eq_false (Nat.not_le.mpr h)]
    rfl
  · rw [if_neg h, decide_eq_true (Nat.le_of_not_lt h)]
    rfl

/-- The level of a wave channel, its select as a number (rule R152). -/
theorem level_wave {s : State} {c : Chan} (hc : c ≠ chNoise) :
    level s c =
      if h : (s.ramAt c).toNat % 16 < 5 then (s.wave ⟨(s.ramAt c).toNat % 16, h⟩ (s.phase c)).toNat % 64 else 0 := by
  unfold level
  simp only [if_neg hc, waveSel_toNat, waveLevel_eq]

/-- Settles O27: a wave channel's level by its select, the noise level by the size of the LFSR. -/
theorem levelReadsTheTableOrTheNoise : Obligations.LevelReadsTheTableOrTheNoise := by
  intro s
  refine ⟨fun c w hw => ?wave, fun c => level_of_select_ge, fun h => ?low, fun h => ?high⟩
  case wave =>
    have hphase : s.phase c.castSucc = s.samplePhase[c] := dif_pos c.isLt
    rw [level_of_select hw, hphase]
    exact ⟨rfl, by omega⟩
  case low => exact (level_noise s).trans (if_pos h)
  case high => exact (level_noise s).trans (if_neg (Nat.not_lt.mpr h))

/-- The gain as a number: the eighth of the product, rounded down, and one more unless a factor is 0 (rule R155). -/
theorem gain_eq (e p : BitVec 4) :
    gain e p = e.toNat * p.toNat / 8 + (if e.toNat = 0 ∨ p.toNat = 0 then 0 else 1) := by
  have hzero : ∀ x : BitVec 4, x.toNat = 0 ↔ x = 0 := fun x => BitVec.toNat_inj (y := 0)
  unfold gain gainShift
  simp only [hzero, Nat.shiftRight_eq_div_pow]
  by_cases h : e = 0 ∨ p = 0
  · rw [if_pos h, if_neg fun k => h.elim k.2 k.1]
  · rw [if_neg h, if_pos ⟨fun k => h (.inr k), fun k => h (.inl k)⟩]

/-- Settles O37: the formula and the bound of the gain, and its values at the examples. -/
theorem gainFollowsTheFormula : Obligations.GainFollowsTheFormula :=
  ⟨fun e p => ⟨gain_eq e p, gain_le e p⟩, rfl, rfl, rfl, rfl, rfl, rfl, rfl, rfl, rfl⟩

/-- A channel tick of a wave channel writes its phase (rule R150). -/
theorem channelTick_wave {c : Chan} (h : c ≠ chNoise) (s : State) :
    channelTick c s = s.setPhase c (s.phase c + 1) := if_neg h

/-- The writing of a phase changes the phases alone (rule R150). -/
theorem setPhase_frame (s : State) (c : Chan) (p : Entry) : { s.setPhase c p with samplePhase := s.samplePhase } = s := by
  unfold State.setPhase
  split <;> rfl

/-- A bit of the LFSR as a number (rule R151). -/
theorem getLsbD_toNat (x : BitVec 15) (i : Nat) : (x.getLsbD i).toNat = x.toNat / 2 ^ i % 2 := by
  exact Nat.toNat_testBit x.toNat i

/-- The shift of the LFSR as a number: the sum of the two bits is odd where they differ (rule R151; assumption 15). -/
theorem lfsrShift_toNat (f t : Nat) (x : BitVec 15) :
    (lfsrShift f t x).toNat =
      (2 * x.toNat + (1 - ((x.toNat / 2 ^ f + x.toNat / 2 ^ t) % 2))) % 32768 := by
  have hbit : ∀ a b : Bool, (!(a ^^ b)).toNat = 1 - (a.toNat + b.toNat) % 2 := by decide
  unfold lfsrShift
  rw [BitVec.toNat_shiftConcat, hbit, getLsbD_toNat, getLsbD_toNat, ← Nat.add_mod, Nat.shiftLeft_eq]
  omega

/-- Settles O35: one phase, or the LFSR, is written and nothing else; the shift is read as a number. -/
theorem channelTickMovesThePhaseOrTheNoise : Obligations.ChannelTickMovesThePhaseOrTheNoise := by
  intro s
  refine ⟨fun c hc => ⟨?_, fun d hd => channelTick_phase_ne hd.symm s, ?_⟩, lfsrShift_toNat _ _ _, rfl⟩
  · rw [channelTick_wave hc, phase_setPhase_same _ _ _ hc]
    exact BitVec.toNat_add _ _
  · rw [channelTick_wave hc]
    exact setPhase_frame s c _

/-- `k` channel ticks of the noise channel shift the LFSR `k` times, all by the same bits (rule R151). -/
theorem channelTick_iterate_noise (k : Nat) (s : State) :
    ((channelTick chNoise)^[k] s).noiseShift =
      (lfsrShift s.cfg.noiseFixedBit (noiseTapBit s.cfg (s.ch chNoise).ev1))^[k] s.noiseShift := by
  induction k generalizing s with
  | zero => rfl
  | succ k ih => exact ih (channelTick chNoise s)

end Sys2Proof.Machine
end

section
/-! PROOFS. What a sample does to one channel, by its gate and its timer (rules R142 to R148, R157). -/

namespace Sys2Proof.Machine

/-- No tick heads a sample whose effects divider is not 0 (rule R170). -/
theorem tickIfDue_of_ne {s : State} (h : s.effectDivider ≠ 0) : tickIfDue s = s := if_neg h

/-- The phases after a sample are those after the mix (rules R142, R209). -/
theorem produceSample_phase (s : State) (c : Chan) :
    (produceSample s).phase c = (mixChannels (tickIfDue s)).st.phase c := by
  simp [produceSample_eq, sampleStored, State.phase]

/-- After a sample a channel reads as it would had it played alone from the ticked state (rules R142, R209). -/
theorem produceSample_agreeOn (s : State) (c : Chan) :
    AgreeOn c (stepChannel ⟨0, 0, tickIfDue s⟩ c).st (produceSample s) := by
  have h := mixChannels_agreeOn (tickIfDue s) c
  refine h.trans ⟨by simp, ?_, ?_, ?_, produceSample_ch s c, produceSample_phase s c,
    fun _ => produceSample_noiseShift s⟩
  all_goals simp [produceSample_eq, sampleStored]

/-- The gate is the enable bit and an envelope other than 0 (rule R143). -/
theorem gateOpen_iff (s : State) (c : Chan) :
    gateOpen s c = true ↔ enabled s c = true ∧ (s.ch c).envelopeValue ≠ 0 := by
  simp [gateOpen]

/-- Settles O28: a closed gate leaves the channel's part of the mix empty, and the other parts do not touch it. -/
theorem closedGateFreezesTheChannel : Obligations.ClosedGateFreezesTheChannel := by
  intro s c hdiv hclosed
  have hgate : gateOpen s c = false := by
    rw [Bool.eq_false_iff, ne_eq, gateOpen_iff]
    rintro ⟨he, hv⟩
    rcases hclosed with h | h
    · exact Bool.false_ne_true (h.symm.trans he)
    · exact hv h
  have hstep : ∀ l r : Nat, stepChannel ⟨l, r, s⟩ c = ⟨l, r, s⟩ := fun l r => stepChannel_closed (m := ⟨l, r, s⟩) hgate
  have hag := produceSample_agreeOn s c
  rw [tickIfDue_of_ne hdiv, hstep] at hag
  exact ⟨hstep, hag.ch, hag.phase, hag.noise⟩

/-- Settles O29: the channel is as its own part of the mix leaves it, which is `k` ticks and the timer of the next one. -/
theorem openGateRunsTheTimer : Obligations.OpenGateRunsTheTimer := by
  intro s c hv hdiv hen hval ht
  obtain ⟨j, k, n, hstep, hreach, hfirst, hend⟩ :=
    stepChannel_open (m := ⟨0, 0, s⟩) ((gateOpen_iff s c).mpr ⟨hen, hval⟩) (period_pos hv c) ht
  dsimp only at hstep hreach hfirst hend
  have hag := produceSample_agreeOn s c
  rw [tickIfDue_of_ne hdiv, hstep] at hag
  have hp := period_pos hv c
  have hj : j = 0 ∨ (1 ≤ j ∧ period s c ≤ j * period s c) :=
    j.eq_zero_or_pos.imp_right fun h => ⟨h, Nat.le_mul_of_pos_left _ h⟩
  refine ⟨k, n, ?channel, ?balance, ?running, fun hlt => ?counting, fun hle => ?ticking, fun hc => ?wave,
    fun hc => ?noise⟩
  case channel => rw [hag.ch, ch_setTimer_same, channelTick_iterate_ch]
  case balance =>
    rcases hend with ⟨hlt, rfl, rfl⟩ | ⟨heq, rfl, rfl⟩
    · omega
    · rw [Nat.succ_mul]; omega
  case running => omega
  case counting =>
    rcases hj with rfl | ⟨hj, hmul⟩ <;> omega
  case ticking =>
    rcases hj with rfl | ⟨hj, hmul⟩ <;> omega
  case wave => rw [hag.phase, phase_setTimer, channelTick_iterate_phase hc]
  case noise =>
    subst hc
    rw [hag.noise rfl, setTimer_noiseShift, channelTick_iterate_noise]

/-- Only one number of ticks at `t`, `t + p`, … lies before the end `w` of a window: the first tick at or after `w` has
no tick at or after `w` before it (rules R142, R145). -/
theorem ticks_before_unique {t p w j k : Nat} (hj : w ≤ t + j * p) (hj' : j = 0 ∨ t + j * p < w + p)
    (hk : w ≤ t + k * p) (hk' : k = 0 ∨ t + (k - 1) * p < w) : j = k := by
  rcases Nat.lt_trichotomy j k with h | h | h
  · have : j * p ≤ (k - 1) * p := Nat.mul_le_mul_right p (by omega)
    omega
  · exact h
  · have : (k + 1) * p ≤ j * p := Nat.mul_le_mul_right p h
    rw [Nat.succ_mul] at this
    omega

@[simp] theorem channelTick_iterate_cfg (c : Chan) (k : Nat) (s : State) : ((channelTick c)^[k] s).cfg = s.cfg := by
  induction k with
  | zero => rfl
  | succ k ih => rw [Function.iterate_succ_apply', channelTick_cfg, ih]

@[simp] theorem channelTick_iterate_ramAt (c d : Chan) (k : Nat) (s : State) :
    ((channelTick c)^[k] s).ramAt d = s.ramAt d := by
  induction k with
  | zero => rfl
  | succ k ih => rw [Function.iterate_succ_apply', State.ramAt, channelTick_ram, ← ih, State.ramAt]

@[simp] theorem channelTick_iterate_wave (c : Chan) (k : Nat) (s : State) :
    ((channelTick c)^[k] s).wave = s.wave := by
  induction k with
  | zero => rfl
  | succ k ih =>
    rw [Function.iterate_succ_apply', ← ih]
    funext w i
    simp only [State.wave, channelTick_mem]

/-- Settles O31: the number of ticks inside the window is the only `k` that the two bounds allow. -/
theorem levelIsReadAfterTheTicksInside : Obligations.LevelIsReadAfterTheTicksInside := by
  intro m c k t p lv hen hval ht hp htpos hppos hreach hlast hwave hnoise
  subst ht hp
  obtain ⟨j, i, n, hstep, hreach', hlast', hend⟩ :=
    stepChannel_open ((gateOpen_iff m.st c).mpr ⟨hen, hval⟩) hppos htpos
  obtain rfl : j = k := ticks_before_unique hreach' hlast' hreach hlast
  have hlv : lv = level ((channelTick c)^[j] m.st) c := by
    by_cases hc : c = chNoise
    · subst hc
      rw [hnoise rfl, level_noise, channelTick_iterate_noise, channelTick_iterate_cfg]
    · rw [hwave hc, level_wave hc, channelTick_iterate_phase hc, channelTick_iterate_ramAt, channelTick_iterate_wave]
  rw [hstep, ← hlv, gainL, gainR, panL_eq, panR_eq]
  refine ⟨rfl, rfl, fun h => ?_, fun h => ?_⟩
  · rcases hend with ⟨-, rfl, rfl⟩ | ⟨heq, -⟩
    · rfl
    · omega
  · rcases hend with ⟨hlt, -⟩ | ⟨-, rfl, rfl⟩
    · omega
    · rfl

/-- Settles O30: with timer and period of one sample there is no tick inside the window and one at its end. -/
theorem periodOfOneSampleMovesOneEntry : Obligations.PeriodOfOneSampleMovesOneEntry := by
  intro m c hc hcps hen hval ht hp
  obtain ⟨j, k, n, hstep, hreach, hlast, hend⟩ :=
    stepChannel_open ((gateOpen_iff m.st c).mpr ⟨hen, hval⟩) (by omega) (by omega)
  obtain rfl : j = 0 := ticks_before_unique hreach hlast (by omega) (.inl rfl)
  rcases hend with ⟨hlt, -⟩ | ⟨-, rfl, rfl⟩
  · omega
  · have hself : setTimer c (period m.st c) (channelTick c m.st) = channelTick c m.st := by
      rw [hp, ← ht, ← channelTick_ch c c m.st]
      exact setTimer_self _ c
    rw [hstep, Function.iterate_zero_apply, Function.iterate_one, hself, channelTick_wave hc]

end Sys2Proof.Machine
end

section
/-! PROOFS. One sample, whole: the frame it stores, what a completed buffer becomes and what else it leaves (rules R142,
R158, R161, R170, R209, R215, R216). -/

namespace Sys2Proof.Machine

/-- The frame of a sample, at the fill position of the producer's buffer (rules R142, R158). -/
def sampleFrame (s : State) : Frame :=
  ⟨zext16 (mixChannels (tickIfDue s)).accL, zext16 (mixChannels (tickIfDue s)).accR⟩

/-- The producer's buffer with the frame of a sample stored (rule R158). -/
def filledBuffer (s : State) : List Frame := (s.bufAt s.prodCursor).set s.fillPos (sampleFrame s)

theorem sampleStored_buf_eq (s : State) : (sampleStored s).buf = s.buf.set s.prodCursor (filledBuffer s) := by
  simp [sampleStored, storeFrame, State.bufAt, filledBuffer, sampleFrame]

/-- Nothing of the ring, its cursors and the accumulator is written by the mix, and nothing else by the storing of the
frame and the completion of the buffer (rules R142, R161, R209). -/
theorem produceSample_eq_mixChannels (s : State) :
    { produceSample s with
      effectDivider := (tickIfDue s).effectDivider, fillPos := (tickIfDue s).fillPos, buf := (tickIfDue s).buf
      dcOffset := (tickIfDue s).dcOffset, ready := (tickIfDue s).ready
      prodCursor := (tickIfDue s).prodCursor } = (mixChannels (tickIfDue s)).st := by
  obtain ⟨b, d, r, p, f, e⟩ := completeBuffer_shape (sampleStored s)
  rw [produceSample_eq, e, ← mixChannels_effectDivider (tickIfDue s), ← mixChannels_fillPos (tickIfDue s),
    ← mixChannels_buf (tickIfDue s), ← mixChannels_dcOffset (tickIfDue s), ← mixChannels_ready (tickIfDue s),
    ← mixChannels_prodCursor (tickIfDue s)]
  rfl

/-- With the channels, the phases and the LFSR put aside as well, a sample leaves the ticked state (rules R142, R161). -/
theorem produceSample_frame (s : State) :
    { produceSample s with
      effectDivider := (tickIfDue s).effectDivider, fillPos := (tickIfDue s).fillPos, buf := (tickIfDue s).buf
      dcOffset := (tickIfDue s).dcOffset, ready := (tickIfDue s).ready, prodCursor := (tickIfDue s).prodCursor
      chan := (tickIfDue s).chan, samplePhase := (tickIfDue s).samplePhase
      noiseShift := (tickIfDue s).noiseShift } = tickIfDue s :=
  (congrArg (fun u : State => { u with
      chan := (tickIfDue s).chan, samplePhase := (tickIfDue s).samplePhase
      noiseShift := (tickIfDue s).noiseShift }) (produceSample_eq_mixChannels s)).trans
    (mixChannels_frame (tickIfDue s))

/-- A sample that does not complete its buffer is the stored frame alone (rule R142). -/
theorem produceSample_within {s : State} (h : s.fillPos + 1 < s.cfg.frames) : produceSample s = sampleStored s := by
  rw [produceSample_eq]
  exact if_neg (by rw [sampleStored_fillPos, sampleStored_cfg]; omega)

/-- A sample that completes its buffer post-processes it and hands it off (rules R142, R209, R215). -/
theorem produceSample_completing {s : State} (h : s.fillPos + 1 = s.cfg.frames) :
    produceSample s = { handOff (postProcess (sampleStored s)) with fillPos := 0 } := by
  rw [produceSample_eq]
  exact if_pos (by rw [sampleStored_fillPos, sampleStored_cfg]; exact h)

/-- The producer's buffer after the frame is stored (rule R158). -/
theorem sampleStored_bufAt_prodCursor {s : State} (h : RingShape s) :
    (sampleStored s).bufAt s.prodCursor = filledBuffer s := by
  have hlt : s.prodCursor < s.buf.length := by rw [h.bufs]; exact h.prod
  simp [State.bufAt, sampleStored_buf_eq, hlt]

/-- The buffers after a completing sample: the producer's is post-processed, published or not (rules R209, R216). -/
theorem produceSample_completing_post {s : State} (hs : RingShape s) (h : s.fillPos + 1 = s.cfg.frames) :
    (produceSample s).buf =
        s.buf.set s.prodCursor (postFrames s.cfg.dcBlendDiv s.dcOffset (filledBuffer s)).1 ∧
      (produceSample s).dcOffset = (postFrames s.cfg.dcBlendDiv s.dcOffset (filledBuffer s)).2 := by
  rw [produceSample_completing h]
  simp [postProcess, sampleStored_bufAt_prodCursor hs, sampleStored_buf_eq]

/-- The flags and the cursor after a completing sample: the hand-off publishes unless the next buffer is ready (rules
R215, R216). -/
theorem produceSample_completing_handOff {s : State} (h : s.fillPos + 1 = s.cfg.frames) :
    (produceSample s).ready =
        (if s.readyAt (nextIndex s s.prodCursor) then s.ready else s.ready.set s.prodCursor true) ∧
      (produceSample s).prodCursor =
        (if s.readyAt (nextIndex s s.prodCursor) then s.prodCursor else nextIndex s s.prodCursor) := by
  have hnext : (postProcess (sampleStored s)).readyAt
      (nextIndex (postProcess (sampleStored s)) (postProcess (sampleStored s)).prodCursor) =
        s.readyAt (nextIndex s s.prodCursor) := by
    simp [State.readyAt, nextIndex]
  rw [produceSample_completing h]
  rcases handOff_cases (postProcess (sampleStored s)) with ⟨hr, e⟩ | ⟨hr, e⟩ <;> rw [hnext] at hr <;>
    rw [e, hr] <;> simp [nextIndex]

/-- Settles O25: the mix of the ticked state with the frame stored, and for a completed buffer what post-processing and
the hand-off write. -/
theorem produceSampleFillsOneFrame : Obligations.ProduceSampleFillsOneFrame := by
  rintro s u fs n hs hu hfs rfl
  obtain rfl : u = tickIfDue s := hu
  obtain rfl : fs = filledBuffer s := hfs
  refine ⟨produceSample_eq_mixChannels s, fun c => ?_, produceSample_frame s, ?_, fun h => ?_, fun h => ?_⟩
  · rw [produceSample_ch]
    exact mixChannels_ch (tickIfDue s) c
  · rw [produceSample_effectDivider]
    split <;> rfl
  · rw [produceSample_within h]
    exact ⟨rfl, sampleStored_buf_eq s, sampleStored_dcOffset s, sampleStored_ready s, sampleStored_prodCursor s⟩
  · obtain ⟨hbuf, hdc⟩ := produceSample_completing_post hs h
    obtain ⟨hready, hprod⟩ := produceSample_completing_handOff h
    exact ⟨by rw [produceSample_completing h], hbuf, hdc, hready, hprod⟩

end Sys2Proof.Machine
end

section
/-! PROOFS. The time base: no sample reads or writes it, so an ADVANCE is its samples and their count, however it is
sliced (rules R44, R140, R141, R144). -/

namespace Sys2Proof.Machine

/-- The state with another time base (rule R44). -/
def withClock (b : Cycle) (s : State) : State := { s with lastSynthesizedCycle := b }

/-- A function of the state that neither reads nor writes the time base (rule R44). -/
def Timeless (f : State → State) : Prop := ∀ b s, f (withClock b s) = withClock b (f s)

/-- Of two timeless functions, the one that a test chooses which does not read the time base either. -/
theorem Timeless.ite {p : State → Prop} [∀ s, Decidable (p s)] (hp : ∀ b s, p (withClock b s) ↔ p s)
    {f g : State → State} (hf : Timeless f) (hg : Timeless g) : Timeless fun s => if p s then f s else g s := by
  intro b s
  simp only [hp, hf b s, hg b s]
  exact (apply_ite (withClock b) _ _ _).symm

/-- One timeless function after another. -/
theorem Timeless.comp {f g : State → State} (hf : Timeless f) (hg : Timeless g) : Timeless fun s => f (g s) :=
  fun b s => (congrArg f (hg b s)).trans (hf b (g s))

theorem sweepCheck_timeless : Timeless sweepCheck :=
  .ite (fun _ _ => Iff.rfl) (fun _ _ => rfl) fun _ _ => rfl

theorem expiryFrequency_timeless : Timeless expiryFrequency :=
  .ite (fun _ _ => Iff.rfl) (.ite (fun _ _ => Iff.rfl) (fun _ _ => rfl) fun _ _ => rfl)
    (.ite (fun _ _ => Iff.rfl) (fun _ _ => rfl) fun _ _ => rfl)

theorem intervalStep_timeless : Timeless intervalStep :=
  .ite (fun _ _ => Iff.rfl)
    (.ite (fun _ _ => Iff.rfl) (fun b s => congrArg expiryCounter
      (expiryFrequency_timeless b { s with sweepTimer := sweepInterval s.cfg s.swp })) fun _ _ => rfl)
    fun _ _ => rfl

theorem sweepModStage_timeless : Timeless sweepModStage :=
  .ite (fun _ _ => Iff.rfl)
    (intervalStep_timeless.comp sweepCheck_timeless) fun _ _ => rfl

theorem envelopeCascade_timeless : Timeless envelopeCascade :=
  .ite (fun _ _ => Iff.rfl) (fun _ _ => rfl) fun _ _ => rfl

theorem shutoffCascade_timeless : Timeless shutoffCascade :=
  .ite (fun _ _ => Iff.rfl) (fun _ _ => rfl) fun b s =>
    envelopeCascade_timeless b (shutoffStage { s with shutoffDivider := shutoffReload })

theorem effectsTick_timeless : Timeless effectsTick := fun b s =>
  (congrArg (fun u : State => shutoffCascade { u with modulationLock := .none }) (sweepModStage_timeless b s)).trans
    (shutoffCascade_timeless b { sweepModStage s with modulationLock := .none })

/-- The effects tick does not read the time base, nor does the test for it (rules R142, R170). -/
theorem tickIfDue_timeless : Timeless tickIfDue :=
  .ite (fun _ _ => Iff.rfl)
    (fun b s => congrArg (fun u : State => { u with effectDivider := tickSamples }) (effectsTick_timeless b s))
    fun _ _ => rfl

/-- Two states with the same phases have the same vector of them. -/
theorem samplePhase_ext {s t : State} (h : ∀ c, s.phase c = t.phase c) : s.samplePhase = t.samplePhase := by
  apply Vector.ext
  intro i hi
  have hphase : ∀ u : State, u.phase ⟨i, by omega⟩ = u.samplePhase[i] := fun u => dif_pos hi
  rw [← hphase, ← hphase]
  exact h _

/-- The mix of states that agree in all that a channel reads (rules R142, R157). -/
theorem mixChannels_congr {s t : State} (h : ∀ c, AgreeOn c s t) :
    (mixChannels t).accL = (mixChannels s).accL ∧ (mixChannels t).accR = (mixChannels s).accR ∧
    (mixChannels t).st.chan = (mixChannels s).st.chan ∧
    (mixChannels t).st.samplePhase = (mixChannels s).st.samplePhase ∧
    (mixChannels t).st.noiseShift = (mixChannels s).st.noiseShift := by
  have hstep := fun c => (h c).stepChannel 0 0
  have hmix := fun c => (hstep c).2.2.trans (mixChannels_agreeOn t c)
  refine ⟨?_, ?_, chan_ext fun c => ?_, samplePhase_ext fun c => ?_, ?_⟩
  · rw [mixChannels_accL, mixChannels_accL]
    exact Finset.sum_congr rfl fun c _ => (hstep c).1
  · rw [mixChannels_accR, mixChannels_accR]
    exact Finset.sum_congr rfl fun c _ => (hstep c).2.1
  · exact (hmix c).ch.trans (mixChannels_agreeOn s c).ch.symm
  · exact (hmix c).phase.trans (mixChannels_agreeOn s c).phase.symm
  · exact ((hmix chNoise).noise rfl).trans ((mixChannels_agreeOn s chNoise).noise rfl).symm

/-- The state after the mix: the channels, the phases and the LFSR are new, the rest is the old state (rule R161). -/
theorem mixChannels_st (s : State) :
    (mixChannels s).st =
      { s with
        chan := (mixChannels s).st.chan
        samplePhase := (mixChannels s).st.samplePhase
        noiseShift := (mixChannels s).st.noiseShift } :=
  congrArg (fun u : State => { u with
    chan := (mixChannels s).st.chan
    samplePhase := (mixChannels s).st.samplePhase
    noiseShift := (mixChannels s).st.noiseShift }) (mixChannels_frame s)

/-- The mix neither reads nor writes the time base: no channel reads it, and the rest of the state stays (rule R142). -/
theorem mixChannels_withClock (b : Cycle) (s : State) :
    mixChannels (withClock b s) =
      ⟨(mixChannels s).accL, (mixChannels s).accR, withClock b (mixChannels s).st⟩ := by
  obtain ⟨hL, hR, hchan, hphase, hnoise⟩ :=
    mixChannels_congr (s := s) (t := withClock b s) fun _ => ⟨rfl, rfl, rfl, rfl, rfl, rfl, fun _ => rfl⟩
  have hst : (mixChannels (withClock b s)).st = withClock b (mixChannels s).st := by
    rw [mixChannels_st (withClock b s), hchan, hphase, hnoise, mixChannels_st s]
    rfl
  calc mixChannels (withClock b s)
      = ⟨(mixChannels (withClock b s)).accL, (mixChannels (withClock b s)).accR, (mixChannels (withClock b s)).st⟩ := rfl
    _ = _ := by rw [hL, hR, hst]

theorem sampleStored_timeless : Timeless sampleStored := fun b s => by
  unfold sampleStored
  rw [tickIfDue_timeless, mixChannels_withClock]
  rfl

theorem handOff_timeless : Timeless handOff := .ite (fun _ _ => Iff.rfl) (fun _ _ => rfl) fun _ _ => rfl

theorem completeBuffer_timeless : Timeless completeBuffer :=
  .ite (fun _ _ => Iff.rfl)
    (fun b s => congrArg (fun u : State => { u with fillPos := 0 }) (handOff_timeless b (postProcess s)))
    fun _ _ => rfl

/-- A sample neither reads nor writes the time base (rules R44, R142). -/
theorem produceSample_timeless : Timeless produceSample := fun b s => by
  rw [produceSample_eq, produceSample_eq]
  exact completeBuffer_timeless.comp sampleStored_timeless b s

theorem produceSamples_timeless (n : Nat) : Timeless (produceSamples n) := by
  induction n with
  | zero => exact fun _ _ => rfl
  | succ n ih => exact ih.comp produceSample_timeless

/-- The samples due, with the truncated subtraction for a stamp in the past (rules R140, R141). -/
theorem samplesDue_eq (toCycle : Cycle) (s : State) :
    samplesDue toCycle s = (toCycle - s.lastSynthesizedCycle) / s.cfg.cps := by
  unfold samplesDue
  split
  · next h => rw [Nat.sub_eq_zero_of_le (Nat.le_of_lt h), Nat.zero_div]
  · rfl

/-- ADVANCE is its samples, with the time base moved on by them (rules R140, R141). -/
theorem advance_eq (toCycle : Cycle) (s : State) :
    advance toCycle s =
      withClock (s.lastSynthesizedCycle + (toCycle - s.lastSynthesizedCycle) / s.cfg.cps * s.cfg.cps)
        (produceSamples ((toCycle - s.lastSynthesizedCycle) / s.cfg.cps) s) := by
  unfold advance
  rw [samplesDue_eq]
  dsimp only
  split
  · next h => rw [h, Nat.zero_mul]; rfl
  · exact produceSamples_timeless _ _ s

/-- No whole sample fits before a stamp less than one ahead, or in the past (rule R141). -/
theorem samples_eq_zero {a start cps : Nat} (hcps : 1 ≤ cps) (h : a < start + cps) : (a - start) / cps = 0 :=
  Nat.div_eq_of_lt (by omega)

/-- At least one sample fits before a stamp one sample ahead (rule R140). -/
theorem one_le_samples {a start cps : Nat} (hcps : 1 ≤ cps) (h : start + cps ≤ a) : 1 ≤ (a - start) / cps :=
  (Nat.one_le_div_iff hcps).mpr (by omega)

/-- Settles O22: less than `CPS` cycles ahead no sample is due; otherwise the samples are those from the old time base. -/
theorem advanceProducesTheWholeSamples : Obligations.AdvanceProducesTheWholeSamples := by
  intro toCycle s hcps
  refine ⟨_, rfl, fun h => ?early, fun h => ⟨_, ?due, rfl, ?clock, ?samples⟩⟩
  case early =>
    rw [advance_eq, samples_eq_zero hcps h, Nat.zero_mul]
    rfl
  case due => exact one_le_samples hcps h
  case clock => rw [advance_eq]; rfl
  case samples =>
    rw [advance_eq]
    exact congrArg (withClock · (produceSamples _ s)) (produceSamples_lastSynthesizedCycle _ s).symm

/-- The samples due to `a` from the start, and then to `b` from where these end, are those due to `b` (rule R144). -/
theorem samples_split {a b : Nat} (h : a ≤ b) (start cps : Nat) :
    (a - start) / cps + (b - (start + (a - start) / cps * cps)) / cps = (b - start) / cps := by
  have hle : (a - start) / cps ≤ (b - start) / cps := Nat.div_le_div_right (by omega)
  have hrest : (b - start - cps * ((a - start) / cps)) / cps = (b - start) / cps - (a - start) / cps :=
    Nat.sub_mul_div_of_le _ _ _ (by
      have := Nat.mul_div_le (a - start) cps
      omega)
  rw [Nat.sub_add_eq, Nat.mul_comm, hrest]
  omega

/-- Settles O23: the samples of both slices follow each other, and their numbers add up. -/
theorem advanceSlicingIsNotObservable : Obligations.AdvanceSlicingIsNotObservable := by
  intro a b s t u hab hs ht
  cases hs
  cases ht
  refine congrArg Host.Outcome.next ?_
  rw [advance_eq b s, ← samples_split hab s.lastSynthesizedCycle s.cfg.cps, produceSamples_add, Nat.add_mul,
    ← Nat.add_assoc, advance_eq b (advance a s), advance_cfg, advance_eq a s, produceSamples_timeless]
  rfl

end Sys2Proof.Machine
end

section
/-! PROOFS. Silence while no channel is enabled: no instruction but an INT write enables one, and what is mixed, stored,
post-processed and returned is zero (rules R143, R157, R160, R207). -/

namespace Sys2Proof.Machine

/-- No channel is enabled in `t` that was not in `u`. -/
def EnablesNone (u t : State) : Prop := ∀ d, enabled t d = true → enabled u d = true

/-- Where none was enabled, none is. -/
theorem EnablesNone.disabled {u t : State} (h : EnablesNone u t) (hu : ∀ c, enabled u c = false) (c : Chan) :
    enabled t c = false := by
  by_contra hc
  have hen := h c (by simpa using hc)
  rw [hu c] at hen
  exact Bool.false_ne_true hen

theorem EnablesNone.of_ch {u t : State} (h : ∀ d, (t.ch d).int = (u.ch d).int) : EnablesNone u t := fun d hd => by
  rwa [enabled, h d] at hd

/-- A store in a register other than INT enables no channel (rule R124). -/
theorem EnablesNone.of_stored {u t : State} (h : ∀ d, StoredIn (u.ch d) (t.ch d)) : EnablesNone u t :=
  .of_ch fun d => (h d).int

theorem EnablesNone.stop (u : State) : EnablesNone u (stopAll u) := fun d hd => by
  rw [enabled, stopAll_ch, clearEnable_disabled] at hd
  exact absurd hd Bool.false_ne_true

theorem EnablesNone.reset (u : State) : EnablesNone u (resetAll u) := fun d hd => by
  rw [enabled, resetAll_ch] at hd
  exact absurd hd Bool.false_ne_true

theorem EnablesNone.consume (u : State) : EnablesNone u (consume u) := by
  rcases consume_cases u with ⟨-, e⟩ | ⟨-, -, e⟩ | ⟨-, -, e⟩ <;> (rw [e]; exact fun _ => id)

/-- A tick, due or not, enables no channel (rule R171). -/
theorem EnablesNone.tick (s : State) : EnablesNone s (tickIfDue s) := fun c => (tickIfDue_ticked s c).enable

/-- An ADVANCE enables no channel (rule R171). -/
theorem EnablesNone.advance (now : Cycle) (s : State) : EnablesNone s (advance now s) :=
  (advanceKeepsSettings now s _ rfl).2

/-- A catch-up and then what enables no channel. -/
theorem EnablesNone.after_catchUp {off : Offset} {now : Cycle} {s t : State}
    (h : EnablesNone (catchUp off now s) t) : EnablesNone s t := by
  rcases catchUp_cases off now s with e | e <;> rw [e] at h
  · exact fun d hd => EnablesNone.advance now s d (h d hd)
  · exact h

theorem writeFql_stored (c : Chan) (v : Byte) (u : State) (d : Chan) :
    StoredIn (u.ch d) ((writeFql c v u).ch d) := by
  rw [writeFql_ch]
  apply StoredIn.setCh
  exact ⟨rfl, rfl, rfl⟩

theorem writeFqh_stored (c : Chan) (v : Byte) (u : State) (d : Chan) :
    StoredIn (u.ch d) ((writeFqh c v u).ch d) := by
  rw [writeFqh_ch]
  apply StoredIn.setCh
  exact ⟨rfl, rfl, rfl⟩

theorem writeEv1_stored (c : Chan) (v : Byte) (u : State) (d : Chan) :
    StoredIn (u.ch d) ((writeEv1 c v u).ch d) := by
  rw [writeEv1_ch]
  apply StoredIn.setCh
  exact ⟨rfl, rfl, rfl⟩

/-- An instruction is an INT write, or it enables no channel (rules R110, R124, R171). -/
theorem exec_int_or_enablesNone {i : Instr} {s t : State} (h : exec i s = .next t) :
    (∃ c now v, i = intOf c now v) ∨ EnablesNone s t := by
  cases i
  case int0 now v => exact .inl ⟨0, now, v, rfl⟩
  case int1 now v => exact .inl ⟨1, now, v, rfl⟩
  case int2 now v => exact .inl ⟨2, now, v, rfl⟩
  case int3 now v => exact .inl ⟨3, now, v, rfl⟩
  case int4 now v => exact .inl ⟨4, now, v, rfl⟩
  case int5 now v => exact .inl ⟨5, now, v, rfl⟩
  all_goals right; cases h
  case wave0 | wave1 | wave2 | wave3 | wave4 | modtbl =>
    exact .after_catchUp (.of_ch fun d => congrArg Channel.int (writeTable_ch _ _ _ d))
  case lrv0 | lrv1 | lrv2 | lrv3 | lrv4 | lrv5 =>
    exact .after_catchUp (.of_stored (StoredIn.setCh ⟨rfl, rfl, rfl⟩))
  case ev00 | ev01 | ev02 | ev03 | ev04 | ev05 =>
    exact .after_catchUp (.of_stored (StoredIn.setCh ⟨rfl, rfl, rfl⟩))
  case fql0 | fql1 | fql2 | fql3 | fql4 | fql5 =>
    exact .after_catchUp (.of_stored (writeFql_stored _ _ _))
  case fqh0 | fqh1 | fqh2 | fqh3 | fqh4 | fqh5 =>
    exact .after_catchUp (.of_stored (writeFqh_stored _ _ _))
  case ev10 | ev11 | ev12 | ev13 | ev14 | ev15 =>
    exact .after_catchUp (.of_stored (writeEv1_stored _ _ _))
  case ram0 | ram1 | ram2 | ram3 | ram4 | swp => exact .after_catchUp (.of_ch fun _ => rfl)
  case sstop now v =>
    split
    · exact .after_catchUp (.stop _)
    · exact .after_catchUp fun _ => id
  case rsvdOdd | rsvdA1 | setMuted | pause | resume => exact fun _ => id
  case advance toCycle => exact .advance toCycle s
  case reset => exact .reset s
  case consume => exact .consume s
  all_goals exact .after_catchUp fun _ => id

/-- Where no channel is enabled and an INT write would leave its channel disabled, none is enabled after the instruction
(rules R110, R160). -/
theorem exec_keeps_disabled {i : Instr} {s t : State} (hs : ∀ c, enabled s c = false)
    (hi : ∀ c now v, i = intOf c now v → v.getLsbD 7 = false) (h : exec i s = .next t) :
    ∀ c, enabled t c = false := by
  rcases exec_int_or_enablesNone h with ⟨c, now, v, rfl⟩ | hn
  · rw [exec_intOf] at h
    cases h
    intro d
    by_cases hd : c = d
    · subst hd
      rw [enabled, writeInt_ch]
      exact hi c now v rfl
    · rw [enabled, writeInt_ch_ne hd]
      exact (EnablesNone.after_catchUp (off := regOffset c 0) (now := now) fun _ => id).disabled hs d
  · exact hn.disabled hs

/-- Only disabled channels: the mix is zero (rules R143, R157, R160). -/
theorem mixChannels_acc_of_disabled {s : State} (h : ∀ c, enabled s c = false) :
    (mixChannels s).accL = 0 ∧ (mixChannels s).accR = 0 := by
  have hzero : ∀ c, stepChannel ⟨0, 0, s⟩ c = ⟨0, 0, s⟩ := fun c =>
    stepChannel_closed (show gateOpen s c = false by rw [gateOpen, h c]; rfl)
  rw [mixChannels_accL, mixChannels_accR]
  simp only [hzero]
  exact ⟨Finset.sum_const_zero, Finset.sum_const_zero⟩

/-- A settled accumulator leaves zero frames zero, and stays settled (rules R201, R207). -/
theorem postFrames_of_zero (d : Nat) {fs : List Frame} (h : ∀ f ∈ fs, f = Frame.zero) :
    postFrames d 0 fs = (fs, 0) := by
  induction fs with
  | nil => rfl
  | cons f fs ih =>
    obtain ⟨rfl, hfs⟩ := List.forall_mem_cons.mp h
    have hframe : postFrame d 0 Frame.zero = (Frame.zero, 0) := postFrame_zero d Frame.zero
    rw [postFrames, hframe, ih hfs]

/-- A buffer of a ring of zero frames is zero frames. -/
theorem Silent.bufAt {s : State} (h : Silent s) (k : Nat) : ∀ f ∈ s.bufAt k, f = Frame.zero := by
  unfold State.bufAt
  rw [List.getD_eq_getElem?_getD]
  cases hk : s.buf[k]? with
  | none => exact fun f hf => absurd hf List.not_mem_nil
  | some b => exact h.ring b (List.mem_of_getElem? hk)

/-- The machine is silent whose parts that R160 speaks of are those of a silent one, but for a buffer that holds zero
frames. -/
theorem Silent.set_buf {s t : State} (h : Silent s) (hd : ∀ c, enabled t c = false) (hdc : t.dcOffset = 0)
    (hout : t.returned = s.returned) {k : Nat} {fs : List Frame} (hfs : ∀ f ∈ fs, f = Frame.zero)
    (hbuf : t.buf = s.buf.set k fs) : Silent t where
  disabled := hd
  settled := hdc
  ring b hb := by
    rw [hbuf] at hb
    rcases List.mem_or_eq_of_mem_set hb with hb | rfl
    · exact h.ring b hb
    · exact hfs
  out := by rw [hout]; exact h.out

/-- In a silent machine the frame of a sample is zero (rules R158, R160). -/
theorem Silent.sampleStored {s : State} (h : Silent s) : Silent (sampleStored s) := by
  have hticked := (EnablesNone.tick s).disabled h.disabled
  have hframe : sampleFrame s = Frame.zero := by
    obtain ⟨hL, hR⟩ := mixChannels_acc_of_disabled hticked
    rw [sampleFrame, hL, hR]
    rfl
  refine h.set_buf (fun c => ?_) (by rw [sampleStored_dcOffset, h.settled]) (by simp [Machine.sampleStored])
    (fun f hf => ?_) (sampleStored_buf_eq s)
  · exact (mixChannels_enabled (tickIfDue s) c).trans (hticked c)
  · exact (List.mem_or_eq_of_mem_set hf).elim (h.bufAt _ f) fun e => e.trans hframe

/-- Post-processing and hand-off of a buffer of zero frames leave a machine silent (rules R160, R207, R215). -/
theorem Silent.completeBuffer {s : State} (h : Silent s) : Silent (completeBuffer s) := by
  rcases completeBuffer_cases s with ⟨-, e⟩ | ⟨-, e⟩
  · rw [e]; exact h
  · have hpost : postFrames s.cfg.dcBlendDiv s.dcOffset (s.bufAt s.prodCursor) = (s.bufAt s.prodCursor, 0) := by
      rw [h.settled]
      exact postFrames_of_zero _ (h.bufAt _)
    rw [e]
    refine h.set_buf (k := s.prodCursor) (fun c => ?_) ?_ (by simp) (h.bufAt s.prodCursor) ?_
    · exact (congrArg (fun ch : Channel => intEnable ch.int) (ch_congr (by simp) c)).trans (h.disabled c)
    · simp [postProcess, hpost]
    · simp [postProcess, hpost]

/-- A sample of a silent machine leaves it silent (rules R142, R160). -/
theorem Silent.produceSample {s : State} (h : Silent s) : Silent (produceSample s) := by
  rw [produceSample_eq]
  exact h.sampleStored.completeBuffer

/-- The time base is no audio (rule R160). -/
theorem Silent.clock {s : State} (h : Silent s) (b : Cycle) : Silent { s with lastSynthesizedCycle := b } :=
  ⟨h.disabled, h.settled, h.ring, h.out⟩

/-- All audio is part of the progress, which a WRITE leaves to its catch-up (rules R124, R160). -/
theorem Silent.of_progress_eq {s t : State} (h : Silent s) (hp : progress t = progress s)
    (hd : ∀ c, enabled t c = false) : Silent t where
  disabled := hd
  settled := (congrArg Progress.dcOffset hp).trans h.settled
  ring := by rw [show t.buf = s.buf from congrArg Progress.buf hp]; exact h.ring
  out := by rw [show t.returned = s.returned from congrArg Progress.returned hp]; exact h.out

/-- RESET of a machine with a settled reset value leaves silence, but for what was returned before (rules R160, R260). -/
theorem Silent.reset {s : State} (h : Silent s) (hz : s.cfg.dcReset = 0) : Silent (resetAll s) := by
  have hp := powerOn_silent hz
  rw [resetAll_eq]
  exact ⟨hp.disabled, hp.settled, hp.ring, h.out⟩

/-- CONSUME of a silent machine answers zero frames, of its own or from the ring (rules R160, R222, R224). -/
theorem Silent.consume {s : State} (h : Silent s) : Silent (consume s) := by
  have hsilence : ∀ f ∈ silence s, f = Frame.zero := fun f => List.eq_of_mem_replicate
  have hout : ∀ {fs out : List Frame}, (∀ f ∈ fs, f = Frame.zero) → some fs = some out → ∀ f ∈ out, f = Frame.zero :=
    fun hfs e => by cases e; exact hfs
  rcases consume_cases s with ⟨-, e⟩ | ⟨-, -, e⟩ | ⟨-, -, e⟩ <;> rw [e]
  · exact ⟨h.disabled, h.settled, h.ring, fun _ => hout hsilence⟩
  · exact ⟨h.disabled, h.settled, h.ring, fun _ => hout hsilence⟩
  · refine ⟨h.disabled, h.settled, h.ring, fun _ => hout ?_⟩
    split
    · exact hsilence
    · exact h.bufAt _

/-- Settles O60: what advances mixes zero frames from closed gates, no other instruction writes audio, and none but an
INT write enables a channel. -/
theorem silenceWithNoChannelEnabled : Obligations.SilenceWithNoChannelEnabled := by
  intro i s t hz h hi hexec
  have hdis := exec_keeps_disabled h.disabled hi hexec
  cases exec_cases hexec with
  | idle e => subst e; exact h
  | write off w =>
    exact (catchUp_keeps (fun _ b hu => hu.clock b) (fun _ hu => hu.produceSample) off _ h).of_progress_eq
      w.progress_eq hdis
  | advance e => subst e; exact advance_keeps (fun _ b hu => hu.clock b) (fun _ hu => hu.produceSample) _ h
  | reset e => subst e; exact h.reset hz
  | muted b e => subst e; exact ⟨h.disabled, h.settled, h.ring, h.out⟩
  | paused b e => subst e; exact ⟨h.disabled, h.settled, h.ring, h.out⟩
  | consume e => subst e; exact h.consume

end Sys2Proof.Machine
end

section
/-! PROOFS. A wave channel that plays alone repeats its wave table (rules R142, R148, R158, R162). -/

namespace Sys2Proof.Machine

/-- The stages of a tick after the sweep stage leave a channel alone that has neither auto-shutoff nor envelope stepping
(rules R184, R186). -/
theorem shutoffCascade_ch_sustained {s : State} {c : Chan} (hs : intAutoShutoff (s.ch c).int = false)
    (he : envEnable (s.ch c).ev1 = false) : (shutoffCascade s).ch c = s.ch c := by
  have hshut : shutoffChannel (s.ch c) = s.ch c := shutoffChannel_idle (.inr hs)
  have henv : envelopeChannel (s.ch c) = s.ch c := envelopeChannel_idle (.inr (.inl he))
  have hstage : ∀ k, (shutoffStage { s with shutoffDivider := k }).ch c = s.ch c := fun k =>
    (shutoffStage_ch _ c).trans hshut
  unfold shutoffCascade
  split
  · rfl
  · unfold envelopeCascade
    split
    · exact hstage _
    · exact (envelopeStage_ch _ c).trans ((congrArg envelopeChannel (hstage _)).trans henv)

/-- So does the whole tick, due or not, but for channel 4 and its sweep (rules R171, R176). -/
theorem tickIfDue_ch_sustained {s : State} {c : Chan} (hc : c ≠ chSweep) (hs : intAutoShutoff (s.ch c).int = false)
    (he : envEnable (s.ch c).ev1 = false) : (tickIfDue s).ch c = s.ch c := by
  have hsweep : State.ch { sweepModStage s with modulationLock := .none } c = s.ch c :=
    (sweepModStage_ch s c).trans (if_neg fun h => hc h.1)
  have heffects : (effectsTick s).ch c = s.ch c := by
    unfold effectsTick
    rw [shutoffCascade_ch_sustained (by rw [hsweep]; exact hs) (by rw [hsweep]; exact he), hsweep]
  unfold tickIfDue
  split
  · exact heffects
  · rfl

/-- The period of a channel other than 4 does not depend on the sweep (rule R146). -/
theorem period_congr_of_ne_sweep {s t : State} {c : Chan} (hc : c ≠ chSweep) (hcfg : t.cfg = s.cfg)
    (hch : t.ch c = s.ch c) : period t c = period s c := by
  unfold period
  rw [if_neg hc, if_neg hc, hcfg, hch]

/-- Channel `c`, one of 0..3, plays wave table `w` alone at full envelope and pan, with a period of one sample, no
envelope stepping and no auto-shutoff (rule R162). -/
structure PlaysAlone (c : Chan) (w : WaveChan) (s : State) : Prop where
  tone : c.val ≤ 3
  alone : ∀ d, enabled s d = true ↔ d = c
  envelope : (s.ch c).envelopeValue = 15
  pan : (s.ch c).lrv = 0xFF
  noStepping : envEnable (s.ch c).ev1 = false
  noShutoff : intAutoShutoff (s.ch c).int = false
  select : (s.ramAt c).toNat % 16 = w.val
  running : 1 ≤ s.cfg.cps
  timer : (s.ch c).frequencyTimer = s.cfg.cps
  period : period s c = s.cfg.cps

/-- What a sample adds for the entry `e` of table `w` at full envelope and pan: 29 times its level on both lanes (rules
R152, R155, R157, R162). -/
def tableFrame (s : State) (w : WaveChan) (e : Entry) : Frame :=
  ⟨BitVec.ofNat 16 (29 * ((s.wave w e).toNat % 64)), BitVec.ofNat 16 (29 * ((s.wave w e).toNat % 64))⟩

section
variable {c : Chan} {w : WaveChan} {s t : State}

theorem PlaysAlone.ne_sweep (h : PlaysAlone c w s) : c ≠ chSweep := by
  rintro rfl
  exact absurd h.tone (by decide)

theorem PlaysAlone.ne_noise (h : PlaysAlone c w s) : c ≠ chNoise := by
  rintro rfl
  exact absurd h.tone (by decide)

/-- A state with the same channel `c` and select, in which no other channel is enabled, plays alone too. -/
theorem PlaysAlone.congr (h : PlaysAlone c w s) (hcfg : t.cfg = s.cfg) (hram : t.ram = s.ram)
    (hch : t.ch c = s.ch c) (hen : EnablesNone s t) : PlaysAlone c w t := by
  have hon : enabled t c = true := by
    rw [enabled, hch]
    exact (h.alone c).mpr rfl
  refine ⟨h.tone, fun d => ⟨fun hd => (h.alone d).mp (hen d hd), fun hd => hd ▸ hon⟩, ?_, ?_, ?_, ?_, ?_, ?_, ?_, ?_⟩
  · rw [hch]; exact h.envelope
  · rw [hch]; exact h.pan
  · rw [hch]; exact h.noStepping
  · rw [hch]; exact h.noShutoff
  · rw [State.ramAt, hram]; exact h.select
  · rw [hcfg]; exact h.running
  · rw [hch, hcfg]; exact h.timer
  · rw [period_congr_of_ne_sweep h.ne_sweep hcfg hch, hcfg]; exact h.period

theorem PlaysAlone.tick_ch (h : PlaysAlone c w s) : (tickIfDue s).ch c = s.ch c :=
  tickIfDue_ch_sustained h.ne_sweep h.noShutoff h.noStepping

/-- An effects tick does not disturb the channel (rule R162). -/
theorem PlaysAlone.tick (h : PlaysAlone c w s) : PlaysAlone c w (tickIfDue s) :=
  h.congr (by simp) (by simp) h.tick_ch (.tick s)

/-- The channel's part of a sample: 29 times the level of its entry, and one entry on (rules R148 case a, R155). -/
theorem PlaysAlone.stepChannel (h : PlaysAlone c w s) :
    stepChannel ⟨0, 0, s⟩ c =
      ⟨29 * ((s.wave w (s.phase c)).toNat % 64), 29 * ((s.wave w (s.phase c)).toNat % 64),
        s.setPhase c (s.phase c + 1)⟩ := by
  have hopen : (s.ch c).envelopeValue ≠ 0 := by rw [h.envelope]; decide
  have hlevel : level s c = (s.wave w (s.phase c)).toNat % 64 := by
    have hlt : (s.ramAt c).toNat % 16 < 5 := by rw [h.select]; exact w.isLt
    have hw : (⟨(s.ramAt c).toNat % 16, hlt⟩ : WaveChan) = w := Fin.ext h.select
    rw [level_wave h.ne_noise, dif_pos hlt, hw]
  have hL : gainL s c = 29 := by rw [gainL, h.envelope, h.pan]; rfl
  have hR : gainR s c = 29 := by rw [gainR, h.envelope, h.pan]; rfl
  have hstep := periodOfOneSampleMovesOneEntry ⟨0, 0, s⟩ c h.ne_noise h.running ((h.alone c).mpr rfl) hopen h.timer
    h.period
  rw [hstep, hlevel, hL, hR, Nat.zero_add, Nat.mul_comm]

/-- The other channels add nothing (rule R143). -/
theorem PlaysAlone.stepChannel_other (h : PlaysAlone c w s) {d : Chan} (hd : d ≠ c) :
    Machine.stepChannel ⟨0, 0, s⟩ d = ⟨0, 0, s⟩ := by
  refine stepChannel_closed (Bool.eq_false_iff.mpr fun hg => hd ?_)
  exact (h.alone d).mp ((gateOpen_iff s d).mp hg).1

/-- The frame of a sample is that of the channel's current entry, tick or no tick (rules R157, R158, R162). -/
theorem PlaysAlone.sampleFrame (h : PlaysAlone c w s) : sampleFrame s = tableFrame s w (s.phase c) := by
  have hphase : (tickIfDue s).phase c = s.phase c := by simp [State.phase]
  have hwave : (tickIfDue s).wave = s.wave := by funext v i; simp [State.wave]
  have hL : (mixChannels (tickIfDue s)).accL = 29 * ((s.wave w (s.phase c)).toNat % 64) := by
    rw [mixChannels_accL, Finset.sum_eq_single_of_mem c (Finset.mem_univ c)
      fun d _ hd => by rw [h.tick.stepChannel_other hd], h.tick.stepChannel, hphase, hwave]
  have hR : (mixChannels (tickIfDue s)).accR = 29 * ((s.wave w (s.phase c)).toNat % 64) := by
    rw [mixChannels_accR, Finset.sum_eq_single_of_mem c (Finset.mem_univ c)
      fun d _ hd => by rw [h.tick.stepChannel_other hd], h.tick.stepChannel, hphase, hwave]
  rw [Machine.sampleFrame, hL, hR]
  rfl

/-- A sample moves the channel one entry on and leaves it playing (rules R148 case a, R162). -/
theorem PlaysAlone.produceSample (h : PlaysAlone c w s) :
    PlaysAlone c w (produceSample s) ∧ (produceSample s).phase c = s.phase c + 1 := by
  have hag := produceSample_agreeOn s c
  rw [h.tick.stepChannel] at hag
  have hphase : (tickIfDue s).phase c = s.phase c := by simp [State.phase]
  refine ⟨h.congr (by simp) (by simp) ?_ fun d => produceSample_enabled, ?_⟩
  · rw [hag.ch, ch_setPhase, h.tick_ch]
  · rw [hag.phase, phase_setPhase_same _ _ _ h.ne_noise, hphase]

end

/-- `t` is `n` samples on from `s`, in the same buffer: channel `c` still plays alone, `n` entries on, and the frames
stored are those of the entries it went through (rule R162). -/
structure PlayedOn (c : Chan) (w : WaveChan) (s : State) (n : Nat) (t : State) : Prop where
  plays : PlaysAlone c w t
  shape : RingShape t
  tables : t.mem = s.mem
  cursor : t.prodCursor = s.prodCursor
  fill : t.fillPos = s.fillPos + n
  phase : t.phase c = s.phase c + BitVec.ofNat 5 n
  frames : ∀ j < n, (t.bufAt s.prodCursor)[s.fillPos + j]? = some (tableFrame s w (s.phase c + BitVec.ofNat 5 j))

/-- The producer's buffer has all its frames (rule R49). -/
theorem RingShape.bufAt_prodCursor_length {s : State} (h : RingShape s) :
    (s.bufAt s.prodCursor).length = s.cfg.frames := by
  have hlt : s.prodCursor < s.buf.length := by rw [h.bufs]; exact h.prod
  refine h.frames _ ?_
  simp [State.bufAt, hlt]

/-- One sample more, within the buffer (rules R148 case a, R158, R162). -/
theorem PlayedOn.produceSample {c : Chan} {w : WaveChan} {s t : State} {n : Nat} (h : PlayedOn c w s n t)
    (hin : t.fillPos + 1 < t.cfg.frames) : PlayedOn c w s (n + 1) (produceSample t) := by
  obtain ⟨hplays, hphase⟩ := h.plays.produceSample
  have hframe : sampleFrame t = tableFrame s w (s.phase c + BitVec.ofNat 5 n) := by
    rw [h.plays.sampleFrame, h.phase]
    simp only [tableFrame, State.wave, h.tables]
  have hbuf : (Machine.produceSample t).bufAt s.prodCursor = filledBuffer t := by
    rw [produceSample_within hin, ← h.cursor]
    exact sampleStored_bufAt_prodCursor h.shape
  refine ⟨hplays, h.shape.sampled (produceSample_ring t), (produceSample_mem t).trans h.tables, ?_, ?_, ?_,
    fun j hj => ?_⟩
  · rw [produceSample_within hin, sampleStored_prodCursor, h.cursor]
  · rw [produceSample_within hin, sampleStored_fillPos, h.fill, Nat.add_assoc]
  · rw [hphase, h.phase, BitVec.add_assoc, BitVec.ofNat_add]
    rfl
  · rw [hbuf, filledBuffer, hframe, h.fill, List.getElem?_set]
    by_cases hlast : j = n
    · have hroom : s.fillPos + n < (t.bufAt t.prodCursor).length := by
        have := h.fill
        rw [h.shape.bufAt_prodCursor_length]
        omega
      rw [hlast, if_pos rfl, if_pos hroom]
    · rw [if_neg (by omega), h.cursor]
      exact h.frames j (by omega)

/-- `n` samples more (rule R162). -/
theorem PlaysAlone.produceSamples {c : Chan} {w : WaveChan} {s : State} (h : PlaysAlone c w s) (hs : RingShape s)
    (n : Nat) (hin : s.fillPos + n < s.cfg.frames) : PlayedOn c w s n (produceSamples n s) := by
  induction n with
  | zero => exact ⟨h, hs, rfl, rfl, rfl, (BitVec.add_zero _).symm, fun j hj => absurd hj (Nat.not_lt_zero j)⟩
  | succ n ih =>
    have hn := ih (by omega)
    rw [produceSamples_add n 1]
    refine hn.produceSample ?_
    rw [hn.fill, produceSamples_cfg]
    exact hin

/-- Settles O34: each sample stores the current entry's frame and moves one entry on, tick or no tick. -/
theorem waveformFollowsTheTable : Obligations.WaveformFollowsTheTable := by
  intro s c w hc hv hs halone henv hpan hstep hshut hsel ht hp n j hj hin
  obtain ⟨-, -, -, hcps, -⟩ := hv
  have hplays : PlaysAlone c w s := ⟨hc, halone, henv, hpan, hstep, hshut, hsel, hcps, ht, hp⟩
  exact (hplays.produceSamples hs n hin).frames j hj

end Sys2Proof.Machine
end

section
/-! PROOFS. The effects tick as a whole: what it leaves alone and which stage acts when (rules R170, R171, R183, R191). -/

namespace Sys2Proof.Machine

/-- The register file without the enable bits is the same when each channel's is (rule R20). -/
theorem map_channelRegs_congr {s t : State} (h : ∀ c, channelRegs (t.ch c) = channelRegs (s.ch c)) :
    t.chan.map channelRegs = s.chan.map channelRegs := by
  apply Vector.ext
  intro i hi
  rw [Vector.getElem_map, Vector.getElem_map]
  exact h ⟨i, hi⟩

/-- A tick writes no setting (rules R20, R191). -/
theorem effectsTick_settings (s : State) : settings (effectsTick s) = settings s := by
  have hregs := map_channelRegs_congr fun c => (effectsTick_ticked s c).regs
  simp [settings, hregs]

/-- A tick writes nothing but the channels, the sweep's and the modulation's elements and the two dividers of the
cascade (rule R191). -/
theorem effectsTick_frame (s : State) :
    { effectsTick s with
      chan := s.chan, sweepFrequency := s.sweepFrequency, sweepTimer := s.sweepTimer
      modulationCounter := s.modulationCounter, modulationPhase := s.modulationPhase
      modulationLock := s.modulationLock, shutoffDivider := s.shutoffDivider
      envelopeDivider := s.envelopeDivider } = s := by
  simp

/-- Settles O38: the channels by what a tick does to each of them, the rest by the tick's frame. -/
theorem effectsTickFrame : Obligations.EffectsTickFrame := fun s =>
  ⟨fun c => (effectsTick_ticked s c).timer, effectsTick_settings s, fun c => (effectsTick_ticked s c).enable,
    effectsTick_frame s⟩

/-- Between two shutoff stages the cascade counts its divider down (rule R171). -/
theorem shutoffCascade_count {s : State} (h : s.shutoffDivider ≠ 0) :
    shutoffCascade s = { s with shutoffDivider := s.shutoffDivider - 1 } := if_pos h

/-- Every fourth tick the shutoff stage acts, and the cascade goes on (rules R170, R171). -/
theorem shutoffCascade_stage {s : State} (h : s.shutoffDivider = 0) :
    shutoffCascade s = envelopeCascade (shutoffStage { s with shutoffDivider := shutoffReload }) :=
  if_neg (not_not_intro h)

/-- Between two envelope stages the cascade counts its divider down (rule R171). -/
theorem envelopeCascade_count {s : State} (h : s.envelopeDivider ≠ 0) :
    envelopeCascade s = { s with envelopeDivider := s.envelopeDivider - 1 } := if_pos h

/-- Every fourth shutoff stage the envelope stage acts (rules R170, R171). -/
theorem envelopeCascade_stage {s : State} (h : s.envelopeDivider = 0) :
    envelopeCascade s = envelopeStage { s with envelopeDivider := envelopeReload } :=
  if_neg (not_not_intro h)

/-- Where the shutoff stage acts and the envelope stage does not (rules R170, R171). -/
theorem shutoffCascade_shutoff {s : State} (h : s.shutoffDivider = 0) (he : s.envelopeDivider ≠ 0) :
    shutoffCascade s =
      { shutoffStage s with shutoffDivider := shutoffReload, envelopeDivider := s.envelopeDivider - 1 } :=
  (shutoffCascade_stage h).trans (envelopeCascade_count he)

/-- Where both stages act, the shutoff stage first (rules R170, R171). -/
theorem shutoffCascade_envelope {s : State} (h : s.shutoffDivider = 0) (he : s.envelopeDivider = 0) :
    shutoffCascade s =
      { envelopeStage (shutoffStage s) with
        shutoffDivider := shutoffReload, envelopeDivider := envelopeReload } :=
  (shutoffCascade_stage h).trans (envelopeCascade_stage he)

/-- Settles O39: the stages after the first leave the sweep and the modulation alone, and each combination of the
dividers, which the first stage leaves alone, has its own equation of the cascade. -/
theorem tickCascade : Obligations.TickCascade := by
  intro s
  have hshut := sweepModStage_shutoffDivider s
  have henv := sweepModStage_envelopeDivider s
  refine ⟨by simp [effectsTick], by simp [effectsTick], by simp [effectsTick], by simp [effectsTick],
    by simp [effectsTick], fun h => ?count, fun h he => ?shutoff, fun h he => ?envelope⟩
  case count =>
    rw [effectsTick, shutoffCascade_count (by exact hshut.trans_ne h)]
    exact ⟨congrArg (· - 1) hshut, henv, rfl⟩
  case shutoff =>
    rw [effectsTick, shutoffCascade_shutoff (by exact hshut.trans h) (by exact henv.trans_ne he)]
    exact ⟨rfl, congrArg (· - 1) henv, fun c => shutoffStage_ch _ c⟩
  case envelope =>
    rw [effectsTick, shutoffCascade_envelope (by exact hshut.trans h) (by exact henv.trans he)]
    exact ⟨rfl, rfl, fun c => (envelopeStage_ch _ c).trans (congrArg envelopeChannel (shutoffStage_ch _ c))⟩

end Sys2Proof.Machine
end

section
/-! PROOFS. The sweep/modulation stage of channel 4: its interval timer and what an expiry does (rules R174 to R182). -/

namespace Sys2Proof.Machine

/-! ### The frequency of an expiry -/

/-- In modulation mode nothing overflows (rule R176). -/
theorem sweepOverflow_modulation {s : State} (hm : modMode (s.ch chSweep).ev1 = true) : sweepOverflow s = false := by
  rw [sweepOverflow, hm]
  rfl

/-- In sweep mode a candidate of 2048 or more overflows (rule R176). -/
theorem sweepOverflow_sweep {s : State} (hm : modMode (s.ch chSweep).ev1 = false) :
    sweepOverflow s = decide (2048 ≤ sweepCandidate s) := by
  rw [sweepOverflow, hm]
  rfl

/-- An overflowing candidate is not committed (rule R178). -/
theorem expiryFrequency_overflow {s : State} (ho : sweepOverflow s = true) : expiryFrequency s = s := by
  have hm : ¬ modMode (s.ch chSweep).ev1 = true := fun hm => by simp [sweepOverflow_modulation hm] at ho
  rw [expiryFrequency, if_neg hm, if_pos ho]

/-- In sweep mode any other candidate is committed (rule R178). -/
theorem expiryFrequency_commit {s : State} (hm : modMode (s.ch chSweep).ev1 = false) (ho : sweepOverflow s = false) :
    expiryFrequency s = { s with sweepFrequency := BitVec.ofNat 11 (sweepCandidate s) } := by
  simp [expiryFrequency, hm, ho]

/-- On the first pass or with repeat the modulated frequency is taken (rules R179, R180). -/
theorem expiryFrequency_modulated {s : State} (hm : modMode (s.ch chSweep).ev1 = true)
    (hp : s.modulationPhase = .armed ∨ modRepeat (s.ch chSweep).ev1 = true) :
    expiryFrequency s = { s with sweepFrequency := modulated s } := by
  rw [expiryFrequency, if_pos hm, if_pos hp]

/-- After the first pass and without repeat the modulation leaves the frequency (rule R179). -/
theorem expiryFrequency_passed {s : State} (hm : modMode (s.ch chSweep).ev1 = true)
    (hp : ¬ (s.modulationPhase = .armed ∨ modRepeat (s.ch chSweep).ev1 = true)) : expiryFrequency s = s := by
  rw [expiryFrequency, if_pos hm, if_neg hp]

/-- The frequency of an expiry does not depend on the timer, which is reloaded before it (rules R177 to R180). -/
theorem expiryFrequency_withTimer (n : Nat) (s : State) :
    expiryFrequency { s with sweepTimer := n } =
      { s with sweepTimer := n, sweepFrequency := (expiryFrequency s).sweepFrequency } := by
  cases hm : modMode (s.ch chSweep).ev1
  case false =>
    cases ho : sweepOverflow s
    case false =>
      rw [expiryFrequency_commit hm ho]
      exact expiryFrequency_commit (s := { s with sweepTimer := n }) hm ho
    case true =>
      rw [expiryFrequency_overflow ho]
      exact expiryFrequency_overflow (s := { s with sweepTimer := n }) ho
  case true =>
    by_cases hp : s.modulationPhase = .armed ∨ modRepeat (s.ch chSweep).ev1 = true
    · rw [expiryFrequency_modulated hm hp]
      exact expiryFrequency_modulated (s := { s with sweepTimer := n }) hm hp
    · rw [expiryFrequency_passed hm hp]
      exact expiryFrequency_passed (s := { s with sweepTimer := n }) hm hp

/-! ### The interval timer -/

/-- The field of SWP that stops the timer, as a number (rules R28, R177). -/
theorem swpInterval_eq_zero_iff (b : Byte) : swpInterval b = 0 ↔ b.toNat / 16 % 8 = 0 := by
  rw [← BitVec.toNat_inj, swpInterval_toNat]
  rfl

/-- The modulation counter wraps from the last entry of the table alone (rule R182). -/
theorem entry_add_one_eq_zero_iff (n : Entry) : n + 1 = 0 ↔ n.toNat = 31 := by
  revert n; decide

/-- The state after an expiry of the interval timer that leaves the frequency `f`: the timer reloaded, the counter
moved on, the first pass ended by the counter's wrap (rules R177, R182). -/
def afterExpiry (f : BitVec 11) (s : State) : State :=
  { s with
    sweepFrequency := f
    sweepTimer := (s.swp.toNat / 16 % 8) * (if s.swp.toNat < 128 then s.cfg.sweepClk0 else s.cfg.sweepClk1)
    modulationCounter := s.modulationCounter + 1
    modulationPhase :=
      if s.modulationCounter.toNat = 31 ∧ s.modulationPhase = .armed then .active else s.modulationPhase }

/-- The interval step at an expiry, as one state (rules R177 to R182). -/
theorem intervalStep_afterExpiry {s : State} (hm : modEnable (s.ch chSweep).ev1 = true)
    (hi : swpInterval s.swp ≠ 0) (ht : s.sweepTimer ≤ 1) :
    intervalStep s = afterExpiry (expiryFrequency s).sweepFrequency s := by
  rw [intervalStep_expire hm hi ht, expiryFrequency_withTimer, sweepInterval_eq]
  simp only [expiryCounter, afterExpiry, entry_add_one_eq_zero_iff]

/-- The interval timer by the numbers of its registers: stopped, counting down, or expiring (rules R177 to R182). -/
theorem intervalStep_spec (s : State) :
    ((s.ch 4).ev1.getLsbD 6 = false ∨ s.swp.toNat / 16 % 8 = 0 → intervalStep s = s) ∧
    ((s.ch 4).ev1.getLsbD 6 = true → s.swp.toNat / 16 % 8 ≠ 0 →
      (1 < s.sweepTimer → intervalStep s = { s with sweepTimer := s.sweepTimer - 1 }) ∧
      (s.sweepTimer ≤ 1 → intervalStep s = afterExpiry (expiryFrequency s).sweepFrequency s)) := by
  rw [Ne, ← swpInterval_eq_zero_iff]
  exact ⟨intervalStep_stopped, fun hm hi => ⟨intervalStep_count hm hi, intervalStep_afterExpiry hm hi⟩⟩

/-- A frequency that an expiry would keep is kept, expiry or not (rule R177). -/
theorem intervalStep_keeps_frequency {s : State} (h : expiryFrequency s = s) :
    (intervalStep s).sweepFrequency = s.sweepFrequency := by
  unfold intervalStep
  split
  · split
    · rw [expiryCounter_sweepFrequency, expiryFrequency_withTimer, h]
    · rfl
  · rfl

/-! ### The stage -/

/-- A disabled channel 4 is not touched (rule R174). -/
theorem sweepModStage_disabled {s : State} (he : enabled s chSweep = false) : sweepModStage s = s :=
  if_neg (by simp [he])

/-- On an overflow the interval timer is that of the disabled channel (rules R174, R176, R177). -/
theorem sweepModStage_overflow {s : State} (he : enabled s chSweep = true) (ho : sweepOverflow s = true) :
    sweepModStage s = intervalStep (s.setCh chSweep (clearEnable (s.ch chSweep))) := by
  rw [sweepModStage, if_pos he, sweepCheck, if_pos ho]

/-- Without an overflow an enabled channel 4 runs the interval timer alone (rules R174, R177). -/
theorem sweepModStage_no_overflow {s : State} (he : enabled s chSweep = true) (ho : sweepOverflow s = false) :
    sweepModStage s = intervalStep s := by
  rw [sweepModStage, if_pos he, sweepCheck, if_neg (by simp [ho])]

/-- The overflow check reads EV1, SWP and the frequency, so disabling channel 4 does not change it (rules R175,
R176). -/
theorem sweepOverflow_clearEnable (s : State) :
    sweepOverflow (s.setCh chSweep (clearEnable (s.ch chSweep))) = sweepOverflow s := by
  unfold sweepOverflow
  rw [ch_setCh_same]
  rfl

/-- Settles O40: on an overflow the stage is the interval step of the state with channel 4 disabled, where an expiry
keeps the frequency. -/
theorem sweepOverflowDisablesChannelFour : Obligations.SweepOverflowDisablesChannelFour := by
  rintro s d rfl
  refine ⟨sweepModStage_disabled, fun he hm hd hcand => ?_⟩
  have hover : sweepOverflow s = true := by
    rw [sweepOverflow_sweep hm, decide_eq_true_iff, sweepCandidate_eq]
    exact hcand.trans_eq (if_pos hd).symm
  have hkept := expiryFrequency_overflow ((sweepOverflow_clearEnable s).trans hover)
  have hch : (intervalStep (s.setCh chSweep (clearEnable (s.ch chSweep)))).ch 4 = clearEnable (s.ch 4) := by
    rw [intervalStep_ch, ch_setCh_same]
  obtain ⟨hstopped, hrunning⟩ := intervalStep_spec (s.setCh chSweep (clearEnable (s.ch chSweep)))
  rw [hkept, ch_setCh_same] at hrunning
  rw [ch_setCh_same] at hstopped
  rw [sweepModStage_overflow he hover]
  refine ⟨hch, ?_, intervalStep_keeps_frequency hkept, hstopped, hrunning⟩
  rw [enabled, hch, clearEnable_disabled]

/-- The counter after an expiry, as a number (rule R182). -/
theorem afterExpiry_modulationCounter (f : BitVec 11) (s : State) :
    (afterExpiry f s).modulationCounter.toNat = (s.modulationCounter.toNat + 1) % 32 :=
  BitVec.toNat_add ..

/-- Settles O41: without an overflow the stage is the interval step, whose expiry commits the candidate. -/
theorem sweepCommitsAtExpiry : Obligations.SweepCommitsAtExpiry := by
  intro s cand he hm hcand hlt
  obtain rfl : cand = sweepCandidate s := hcand.trans (sweepCandidate_eq s).symm
  have hover : sweepOverflow s = false := by
    rw [sweepOverflow_sweep hm]
    exact decide_eq_false (by omega)
  obtain ⟨hstopped, hrunning⟩ := intervalStep_spec s
  rw [expiryFrequency_commit hm hover] at hrunning
  rw [sweepModStage_no_overflow he hover]
  refine ⟨intervalStep_chan s, hstopped, fun hen hint => ?_⟩
  obtain ⟨hcount, hexpire⟩ := hrunning hen hint
  refine ⟨hcount, fun ht => ?_⟩
  rw [hexpire ht]
  exact ⟨Nat.mod_eq_of_lt hlt, afterExpiry_modulationCounter _ s, rfl⟩

/-! ### The modulated frequency -/

/-- Bits 10:8 of a frequency, as a number (rule R86). -/
theorem extract_high_toNat (x : BitVec 11) : (x.extractLsb' 8 3).toNat = x.toNat / 256 := by
  have hlt := x.isLt
  rw [BitVec.extractLsb'_toNat, Nat.shiftRight_eq_div_pow]
  omega

/-- Bits 7:0 of a frequency, as a number (rule R86). -/
theorem extract_low_toNat (x : BitVec 11) : (x.extractLsb' 0 8).toNat = x.toNat % 256 :=
  BitVec.extractLsb'_toNat ..

/-- Without a frequency write since the last tick the modulated frequency is the sum (rules R180, R181). -/
theorem modulated_of_none {s : State} (h : s.modulationLock = .none) : modulated s = modulatedBase s := by
  rw [modulated, h]

/-- After an FQL write the low byte is the register's (rule R181). -/
theorem modulated_of_lowByte {s : State} (h : s.modulationLock = .lowByte) :
    (modulated s).toNat = 256 * ((modulatedBase s).toNat / 256) + (s.ch chSweep).fql.toNat := by
  have hmod : modulated s = (modulatedBase s).extractLsb' 8 3 ++ (s.ch chSweep).fql := by rw [modulated, h]
  rw [hmod, append_byte_toNat, extract_high_toNat]

/-- After an FQH write bits 10:8 are the register's (rule R181). -/
theorem modulated_of_highByte {s : State} (h : s.modulationLock = .highByte) :
    (modulated s).toNat = 256 * ((s.ch chSweep).fqh.toNat % 8) + (modulatedBase s).toNat % 256 := by
  have hmod : modulated s = freqHigh (s.ch chSweep).fqh ++ (modulatedBase s).extractLsb' 0 8 := by rw [modulated, h]
  rw [hmod, append_byte_toNat, freqHigh_toNat, extract_low_toNat]

/-- Settles O42: in modulation mode the stage is the interval step, whose expiry takes the modulated frequency or keeps
the old one. -/
theorem modulationRecomputesAtExpiry : Obligations.ModulationRecomputesAtExpiry := by
  intro s base new he hm hbase hnew
  obtain rfl : base = (freqReg (s.ch chSweep)).toNat := hbase.trans (freqReg_toNat _).symm
  obtain rfl : new = (modulatedBase s).toNat := Int.natCast_inj.mp (hnew.trans (modulatedBase_toNat s).symm)
  obtain ⟨hstopped, hrunning⟩ := intervalStep_spec s
  rw [sweepModStage_no_overflow he (sweepOverflow_modulation hm)]
  refine ⟨hstopped, fun hen hint => ?_⟩
  obtain ⟨hcount, hexpire⟩ := hrunning hen hint
  refine ⟨hcount, fun ht => ?_⟩
  rw [hexpire ht]
  refine ⟨fun hpass => ?recomputed, fun hphase hrepeat => ?kept, afterExpiry_modulationCounter _ s, _, rfl⟩
  case recomputed =>
    rw [expiryFrequency_modulated hm hpass]
    exact ⟨fun h => congrArg BitVec.toNat (modulated_of_none h), modulated_of_lowByte, modulated_of_highByte⟩
  case kept =>
    rw [expiryFrequency_passed hm (not_or_intro hphase (Bool.eq_false_iff.mp hrepeat))]
    rfl

end Sys2Proof.Machine
end

section
/-! PROOFS. The shutoff stage and the envelope stage, channel by channel (rules R184 to R189). -/

namespace Sys2Proof.Machine

/-- Counting a timer or counter other than 0 down does not wrap (rules R184, R187). -/
theorem sub_one_eq_ofNat {w : Nat} {t : BitVec w} (h : t ≠ 0) : t - 1 = BitVec.ofNat w (t.toNat - 1) := by
  have hpos : t.toNat ≠ 0 := fun e => h (BitVec.eq_of_toNat_eq (by simpa using e))
  have hlt := t.isLt
  calc t - 1
      = BitVec.ofNat w t.toNat - BitVec.ofNat w 1 := by rw [BitVec.ofNat_toNat, BitVec.setWidth_eq]; rfl
    _ = BitVec.ofNat w (t.toNat - 1) := BitVec.ofNat_sub_ofNat_of_le _ _ (by omega) (by omega)

/-- The shutoff stages act on each channel alone (rule R184). -/
theorem shutoffStage_iterate_ch (n : Nat) (s : State) (c : Chan) :
    (shutoffStage^[n] s).ch c = shutoffChannel^[n] (s.ch c) := by
  induction n with
  | zero => rfl
  | succ n ih => rw [Function.iterate_succ_apply', Function.iterate_succ_apply', shutoffStage_ch, ih]

/-- As long as the counter does not wrap, each stage counts it down (rule R184). -/
theorem shutoffChannel_iterate {ch : Channel} (he : intEnable ch.int = true) (ha : intAutoShutoff ch.int = true)
    {j : Nat} (hj : j ≤ ch.shutoffTimer.toNat) :
    shutoffChannel^[j] ch = { ch with shutoffTimer := BitVec.ofNat 5 (ch.shutoffTimer.toNat - j) } := by
  induction j with
  | zero => simp
  | succ j ih =>
    have hlt := ch.shutoffTimer.isLt
    have htimer : (BitVec.ofNat 5 (ch.shutoffTimer.toNat - j)).toNat = ch.shutoffTimer.toNat - j :=
      Nat.mod_eq_of_lt (by omega)
    have hne : BitVec.ofNat 5 (ch.shutoffTimer.toNat - j) ≠ 0 := fun e => by
      have hzero : 0 = ch.shutoffTimer.toNat - j := (congrArg BitVec.toNat e).symm.trans htimer
      omega
    rw [Function.iterate_succ_apply', ih (by omega), shutoffChannel_count (by exact he) (by exact ha) hne]
    dsimp only
    rw [sub_one_eq_ofNat hne, htimer, Nat.sub_sub]

/-- Settles O43: k stages count the counter down to 0, and the next one finds it 0. -/
theorem shutoffAfterExactlyCounterPlusOneStages : Obligations.ShutoffAfterExactlyCounterPlusOneStages := by
  refine ⟨?_, fun s c h => (shutoffStage_ch s c).trans (shutoffChannel_idle h)⟩
  rintro s c k he ha rfl
  refine ⟨fun j hj => (shutoffStage_iterate_ch j s c).trans (shutoffChannel_iterate he ha hj), ?_⟩
  rw [shutoffStage_iterate_ch, Function.iterate_succ_apply', shutoffChannel_iterate he ha le_rfl, Nat.sub_self]
  exact shutoffChannel_expire he ha rfl

/-- Settles O44: each clause is one equation of the envelope stage of a channel. -/
theorem envelopeStageSteps : Obligations.EnvelopeStageSteps := by
  rintro s c h rfl
  rw [envelopeStage_ch]
  refine ⟨envelopeChannel_idle, fun he hv hf => ⟨fun ht => ?count, fun ht r hr => ?step⟩⟩
  case count =>
    rw [envelopeChannel_count he hv hf ht, sub_one_eq_ofNat ht]
  case step =>
    obtain rfl : r = envInterval (s.ch c).ev0 := BitVec.eq_of_toNat_eq (hr.trans (envInterval_toNat _).symm)
    rw [envelopeChannel_step he hv hf ht, ← envInit_eq]
    refine ⟨fun hdir hlt => envelopeStep_up hdir hlt, fun hdir hpos => envelopeStep_down hdir hpos,
      fun hsat => ⟨fun hrep => ?repeats, fun hrep => ?freezes⟩⟩
    case repeats => exact (envelopeStep_saturated (by exact hsat)).trans (if_pos hrep)
    case freezes => exact (envelopeStep_saturated (by exact hsat)).trans (if_neg (Bool.eq_false_iff.mp hrep))

end Sys2Proof.Machine
end

section
/-! PROOFS. Post-processing: the scaling, the two branches of a frame, and how a buffer moves the accumulator to 0
(rules R200 to R208). -/

namespace Sys2Proof.Machine

/-- A frame with a nonzero accumulator: its correction is subtracted from both lanes and from the accumulator (rules
R202, R205, R206). -/
theorem postFrame_of_ne_zero (d : Nat) {dc : Int} (h : dc ≠ 0) (f : Frame) :
    postFrame d dc f =
      (⟨wrap16 (scaleLane f.l + dc - dcCorrection d dc (scaleLane f.l + dc) (scaleLane f.r + dc)),
        wrap16 (scaleLane f.r + dc - dcCorrection d dc (scaleLane f.l + dc) (scaleLane f.r + dc))⟩,
        dc - dcCorrection d dc (scaleLane f.l + dc) (scaleLane f.r + dc)) := if_neg h

/-- A correction that takes neither lane below the offset is the steady one (rules R203, R204). -/
theorem dcCorrection_steady {d : Nat} {dc sl sr : Int} (hl : steadyCorrection d dc ≤ sl)
    (hr : steadyCorrection d dc ≤ sr) : dcCorrection d dc (sl + dc) (sr + dc) = steadyCorrection d dc := by
  rcases dcCorrection_cases d dc sl sr with ⟨-, -, e⟩ | ⟨hclamp, -⟩
  · exact e
  · omega

/-- A correction that would take a lane below the offset is the smaller scaled lane (rule R204). -/
theorem dcCorrection_clamped {d : Nat} {dc sl sr : Int}
    (h : sl < steadyCorrection d dc ∨ sr < steadyCorrection d dc) :
    dcCorrection d dc (sl + dc) (sr + dc) = min sl sr := by
  rcases dcCorrection_cases d dc sl sr with ⟨hl, hr, -⟩ | ⟨-, e⟩
  · omega
  · exact e

/-- The steady correction is the one number with the accumulator's sign whose magnitude is the accumulator's share
rounded up (rule R203). -/
theorem steadyCorrection_unique {d : Nat} {dc corr : Int} (hdc : dc ≠ 0) (hlt : d * |corr| < |dc| + d)
    (hle : |dc| ≤ d * |corr|) (hsign : 0 ≤ corr * dc) : steadyCorrection d dc = corr := by
  rw [Int.abs_eq_natAbs, Int.abs_eq_natAbs] at hlt hle
  norm_cast at hlt hle
  have hshare : (dc.natAbs + (d - 1)) / d = corr.natAbs :=
    Nat.div_eq_of_lt_le (by rw [Nat.mul_comm]; omega) (by rw [Nat.succ_mul, Nat.mul_comm]; omega)
  rw [steadyCorrection, hshare]
  rcases Int.lt_or_gt_of_ne hdc with hneg | hpos
  · have hcorr : corr ≤ 0 := nonpos_of_mul_nonneg_left hsign hneg
    rw [Int.sign_eq_neg_one_of_neg hneg]
    omega
  · have hcorr : 0 ≤ corr := nonneg_of_mul_nonneg_left hsign hpos
    rw [Int.sign_eq_one_of_pos hpos]
    omega

/-- Settles O45, by induction on the frames: the scaled frame leaves the accumulator at 0 for the next one. -/
theorem settledPostProcessingOnlyScales : Obligations.SettledPostProcessingOnlyScales := by
  intro d fs
  induction fs with
  | nil => rfl
  | cons f fs ih =>
    rw [postFrames, postFrame_zero, ih, scaleLane_eq, scaleLane_eq]
    rfl

/-- Settles O46: a frame subtracts its correction, and a buffer keeps the accumulator between 0 and its old value. -/
theorem dcAccumulatorMovesTowardZero : Obligations.DcAccumulatorMovesTowardZero := by
  intro d dc fs hd
  obtain ⟨hlo, hhi⟩ := postFrames_between hd dc fs
  refine ⟨fun f => ?frame, fun h => by omega, fun h => by omega⟩
  case frame =>
    by_cases h : dc = 0
    · subst h
      exact .inr ⟨rfl, congrArg Prod.snd (postFrame_zero d f)⟩
    · exact .inl (congrArg Prod.snd (postFrame_of_ne_zero d h f))

/-- The frame that a buffer stores at an index is processed with the accumulator that the frames before it left (rule
R200). -/
theorem postFrames_getElem? (d : Nat) (dc : Int) (fs : List Frame) (i : Nat) :
    (postFrames d dc fs).1[i]? = (fs[i]?).map fun f => (postFrame d (postFrames d dc (fs.take i)).2 f).1 := by
  induction fs generalizing dc i with
  | nil => rfl
  | cons f fs ih =>
    cases i with
    | zero => rfl
    | succ i =>
      rw [postFrames_cons_fst, List.getElem?_cons_succ, List.getElem?_cons_succ, List.take_succ_cons,
        postFrames_cons_snd]
      exact ih _ i

/-- Settles O48: the given correction is the steady one, and the two cases of the model's correction give the two
branches. -/
theorem dcFrameHasTwoBranches : Obligations.DcFrameHasTwoBranches := by
  refine ⟨?_, fun _ _ => rfl, fun _ _ _ _ => rfl, postFrames_getElem?⟩
  intro d dc sl sr corr f _ hdc hsl hsr hlt hle hsign
  obtain rfl : sl = scaleLane f.l := hsl.trans (scaleLane_eq f.l).symm
  obtain rfl : sr = scaleLane f.r := hsr.trans (scaleLane_eq f.r).symm
  obtain rfl : steadyCorrection d dc = corr := steadyCorrection_unique hdc hlt hle hsign
  rw [postFrame_of_ne_zero d hdc]
  refine ⟨fun hl hr => ?steady, fun hclamp => ?clamped⟩
  case steady =>
    rw [dcCorrection_steady hl hr]
    rfl
  case clamped =>
    rw [dcCorrection_clamped hclamp, wrap16, wrap16, Int.add_comm _ dc, Int.add_comm _ dc, Int.add_sub_assoc,
      Int.add_sub_assoc]

/-- The magnitude of the accumulator after a frame of the steady branch (rules R203, R206). -/
def blendStep (d n : Nat) : Nat := n - (n + (d - 1)) / d

/-- With the default divisor the steady branch leaves the whole part of 255/256 of the magnitude (rule R203). -/
theorem blendStep_default (n : Nat) : blendStep 256 n = 255 * n / 256 := by
  unfold blendStep
  omega

/-- A smaller magnitude stays the smaller one (rule R208). -/
theorem blendStep_default_mono : Monotone (blendStep 256) := fun a b h => by
  rw [blendStep_default, blendStep_default]
  omega

/-- The largest magnitude is gone after 1389 steady frames (rule R208). -/
theorem blendStep_largest_settles : (blendStep 256)^[1389] 32768 = 0 := by decide +kernel

/-- Every magnitude of 16 bits is gone after 1389 steady frames, and stays so (rule R208). -/
theorem blendStep_settles {n k : Nat} (hn : n ≤ 32768) (hk : 1389 ≤ k) : (blendStep 256)^[k] n = 0 := by
  obtain ⟨j, rfl⟩ := Nat.exists_eq_add_of_le hk
  have hsettled : (blendStep 256)^[1389] n = 0 :=
    Nat.le_zero.mp (blendStep_largest_settles ▸ blendStep_default_mono.iterate 1389 hn)
  have hstays : (blendStep 256)^[j] 0 = 0 := Function.iterate_fixed rfl j
  rw [Nat.add_comm, Function.iterate_add_apply, hsettled, hstays]

/-- A frame whose lanes bear the steady correction takes that correction from the accumulator (rules R203, R206,
R207). -/
theorem postFrame_snd_steady {d : Nat} {dc : Int} {f : Frame} (hl : steadyCorrection d dc ≤ scaleLane f.l)
    (hr : steadyCorrection d dc ≤ scaleLane f.r) : (postFrame d dc f).2 = dc - steadyCorrection d dc := by
  by_cases h : dc = 0
  · subst h
    simp
  · rw [postFrame_of_ne_zero d h, dcCorrection_steady hl hr]

/-- The steady correction takes a step of the magnitude (rule R203). -/
theorem natAbs_sub_steadyCorrection {d : Nat} (hd : 1 ≤ d) (dc : Int) :
    (dc - steadyCorrection d dc).natAbs = blendStep d dc.natAbs := by
  unfold blendStep
  rcases Int.lt_trichotomy dc 0 with hneg | rfl | hpos
  · obtain ⟨n, hn, -, hle, hshare⟩ := steadyCorrection_pos hd (dc := -dc) (by omega)
    rw [steadyCorrection_neg] at hn
    rw [Int.natAbs_neg] at hshare
    omega
  · simp
  · obtain ⟨n, hn, -, hle, hshare⟩ := steadyCorrection_pos hd hpos
    omega

/-- The inputs for which R208 claims convergence: any with an accumulator that is not positive; with a positive one of
16 bits, frames whose raw lanes are both at least 32. -/
def NeverClamps (dc : Int) (fs : List Frame) : Prop :=
  dc ≤ 0 ∨ dc ≤ 32768 ∧ ∀ f ∈ fs, 32 ≤ f.l.toNat ∧ 32 ≤ f.r.toNat

/-- A raw lane of at least 32 bears the steady correction of any accumulator of 16 bits (rule R208). -/
theorem steadyCorrection_le_scaleLane {dc : Int} {x : Lane} (hpos : 0 < dc) (hdc : dc ≤ 32768)
    (hx : 32 ≤ x.toNat) : steadyCorrection 256 dc ≤ scaleLane x := by
  obtain ⟨n, hn, -, -, hshare⟩ := steadyCorrection_pos (d := 256) (by decide) hpos
  rw [hn, scaleLane_eq]
  omega

/-- The steady correction of an accumulator that is not positive takes no lane below the offset (rule R204). -/
theorem steadyCorrection_nonpos {d : Nat} {dc : Int} (hd : 1 ≤ d) (h : dc ≤ 0) : steadyCorrection d dc ≤ 0 := by
  rcases Int.lt_or_eq_of_le h with hneg | rfl
  · obtain ⟨n, hn, -⟩ := steadyCorrection_pos hd (dc := -dc) (by omega)
    rw [steadyCorrection_neg] at hn
    omega
  · rw [steadyCorrection_zero]

/-- The next frame of such an input bears the steady correction (rules R204, R208). -/
theorem NeverClamps.steady {dc : Int} {f : Frame} {fs : List Frame} (h : NeverClamps dc (f :: fs)) :
    steadyCorrection 256 dc ≤ scaleLane f.l ∧ steadyCorrection 256 dc ≤ scaleLane f.r := by
  rcases Int.lt_or_le 0 dc with hpos | hnonpos
  · obtain ⟨hdc, hraw⟩ := h.resolve_left (by omega)
    obtain ⟨hl, hr⟩ := hraw f List.mem_cons_self
    exact ⟨steadyCorrection_le_scaleLane hpos hdc hl, steadyCorrection_le_scaleLane hpos hdc hr⟩
  · have hcorr := steadyCorrection_nonpos (d := 256) (by decide) hnonpos
    exact ⟨hcorr.trans (scaleLane_nonneg _), hcorr.trans (scaleLane_nonneg _)⟩

/-- After a frame the rest of such an input is such an input (rules R206, R208). -/
theorem NeverClamps.tail {dc : Int} {f : Frame} {fs : List Frame} (h : NeverClamps dc (f :: fs)) :
    NeverClamps (postFrame 256 dc f).2 fs := by
  rcases Int.lt_or_le 0 dc with hpos | hnonpos
  · obtain ⟨hdc, hraw⟩ := h.resolve_left (by omega)
    have hle := (postFrame_nonneg (d := 256) (by decide) hpos.le f).2
    exact .inr ⟨hle.trans hdc, fun g hg => hraw g (List.mem_cons_of_mem f hg)⟩
  · exact .inl (postFrame_nonpos (by decide) hnonpos f).2

/-- On such an input every frame takes one step of the magnitude (rule R208). -/
theorem NeverClamps.natAbs_postFrames {dc : Int} {fs : List Frame} (h : NeverClamps dc fs) :
    (postFrames 256 dc fs).2.natAbs = (blendStep 256)^[fs.length] dc.natAbs := by
  induction fs generalizing dc with
  | nil => rfl
  | cons f fs ih =>
    obtain ⟨hl, hr⟩ := h.steady
    rw [postFrames_cons_snd, ih h.tail, postFrame_snd_steady hl hr, natAbs_sub_steadyCorrection (by decide),
      List.length_cons, Function.iterate_succ_apply]

/-- Settles O47: every frame is of the steady branch, and 1389 steady steps bring the largest magnitude to 0. -/
theorem dcConvergesWithin1389Frames : Obligations.DcConvergesWithin1389Frames := by
  intro dc fs hlo hhi hinput hlen
  have hsteady : NeverClamps dc fs := hinput.imp_right fun hraw => ⟨by omega, hraw⟩
  have hgone : (postFrames 256 dc fs).2.natAbs = 0 :=
    hsteady.natAbs_postFrames.trans (blendStep_settles (by omega) hlen)
  exact Int.natAbs_eq_zero.mp hgone

end Sys2Proof.Machine
end

section
/-! PROOFS. The hand-off, CONSUME and the controls as the agents see them, and the ring when nothing is consumed (rules
R215 to R227, R230 to R232). -/

namespace Sys2Proof.Machine

/-- Settles O49: the two cases of the hand-off, by the flag of the next buffer. -/
theorem handOffPublishesOrDrops : Obligations.HandOffPublishesOrDrops := by
  rintro s n rfl
  rcases handOff_cases s with ⟨hr, e⟩ | ⟨hr, e⟩
  · exact ⟨fun _ => e, fun h => absurd (hr.symm.trans h) Bool.noConfusion⟩
  · refine ⟨fun h => absurd (hr.symm.trans h) Bool.noConfusion, fun _ => ?_⟩
    rw [e]
    exact ⟨rfl, rfl, rfl⟩

/-- Settles O53: each control operation is the store of its flag. -/
theorem controlOperationsStoreTheirFlag : Obligations.ControlOperationsStoreTheirFlag :=
  fun _ _ => ⟨rfl, rfl, rfl⟩

/-- The buffer at the consumer's cursor is ready when one is queued, and only then (rules R57 item d, R223). -/
theorem RingOwned.ready_iff_queued {s : State} (ho : RingOwned s) (hs : RingShape s) :
    s.readyAt s.consCursor = true ↔ 0 < queueLength s := by
  rw [(ringOwned_iff s).mp ho _ hs.cons, ringDistance_eq hs.cons hs.cons, if_pos (Nat.le_refl _), Nat.sub_self]

/-- With the consumer one buffer further, the queue has lost its oldest buffer and nothing else (rules R222, R227). -/
theorem ringQueue_take {s : State} (hs : RingShape s) (hq : 0 < queueLength s) :
    ringQueue s = s.bufAt s.consCursor :: ringQueue { s with consCursor := nextIndex s s.consCursor } := by
  have hne : s.prodCursor ≠ s.consCursor := by
    intro h
    rw [queueLength_eq, h, ringDistance_eq hs.cons hs.cons, if_pos (Nat.le_refl _)] at hq
    omega
  have hlen : queueLength { s with consCursor := nextIndex s s.consCursor } = queueLength s - 1 :=
    (ringDistance_from_succ hs.cons hs.prod).trans (if_neg hne)
  obtain ⟨n, hn⟩ := Nat.exists_eq_succ_of_ne_zero (Nat.ne_of_gt hq)
  rw [ringQueue, ringQueue, hlen, hn, List.range_succ_eq_map, List.map_cons, List.map_map, Nat.add_zero,
    Nat.mod_eq_of_lt hs.cons]
  refine congrArg _ (List.map_congr_left fun j _ => congrArg s.bufAt ?_)
  show (s.consCursor + (j + 1)) % s.cfg.nBuf = ((s.consCursor + 1) % s.cfg.nBuf + j) % s.cfg.nBuf
  rw [Nat.mod_add_mod, Nat.add_assoc, Nat.add_comm 1 j]

/-- Settles O51: silence while paused; otherwise the buffer at the cursor is taken when one is queued. -/
theorem consumeTakesTheOldestBuffer : Obligations.ConsumeTakesTheOldestBuffer := by
  intro s hinv
  have hready := hinv.owned.ready_iff_queued hinv.shape
  refine ⟨consume s, rfl, ?_⟩
  rcases consume_cases s with ⟨hp, e⟩ | ⟨hp, hr, e⟩ | ⟨hp, hr, e⟩ <;> rw [e]
  case inl =>
    have hrun : s.paused ≠ false := by simp [hp]
    exact ⟨fun _ => ⟨rfl, rfl⟩, (absurd · hrun), (absurd · hrun), rfl⟩
  case inr.inl =>
    have hrun : s.paused ≠ true := Bool.eq_false_iff.mp hp
    have hempty : queueLength s = 0 := Nat.eq_zero_of_not_pos fun h => Bool.eq_false_iff.mp hr (hready.mpr h)
    refine ⟨(absurd · hrun), fun _ _ => rfl, fun _ b q hq => ?_, rfl⟩
    rw [← ringQueue_length, hq] at hempty
    exact absurd hempty (Nat.succ_ne_zero _)
  case inr.inr =>
    have hrun : s.paused ≠ true := Bool.eq_false_iff.mp hp
    have hqueued := hready.mp hr
    refine ⟨(absurd · hrun), fun _ hq => ?_, fun _ b q hq => ?_, rfl⟩
    · rw [← ringQueue_length, hq] at hqueued
      exact absurd hqueued (Nat.lt_irrefl 0)
    · obtain ⟨rfl, rfl⟩ := List.cons.inj ((ringQueue_take hinv.shape hqueued).symm.trans hq)
      exact ⟨rfl, rfl, rfl, rfl⟩

/-- The producer's cursor lies the queue's length after the consumer's (rule R57 item d). -/
theorem RingShape.prodCursor_eq {s : State} (hs : RingShape s) :
    s.prodCursor = (s.consCursor + queueLength s) % s.cfg.nBuf := by
  have hpos := Nat.zero_lt_of_lt hs.prod
  refine ringDistance_inj hs.cons hs.prod (Nat.mod_lt _ hpos) ?_
  rw [ringDistance_add hs.cons (queueLength_lt hpos)]
  rfl

/-- When the buffer after the producer's is ready, the queue is full: `N_BUF` - 1 buffers wait (rules R216, R218). -/
theorem RingOwned.full {s : State} (ho : RingOwned s) (hs : RingShape s)
    (h : s.readyAt (nextIndex s s.prodCursor) = true) : queueLength s = s.cfg.nBuf - 1 := by
  have hnear := ((ringOwned_iff s).mp ho _ (Nat.mod_lt _ (Nat.zero_lt_of_lt hs.prod))).mp h
  have hmeet : (s.prodCursor + 1) % s.cfg.nBuf = s.consCursor := by
    by_contra hne
    rw [ringDistance_succ hs.cons hs.prod, if_neg hne, ← queueLength_eq] at hnear
    omega
  rw [queueLength_eq, ringDistance_eq hs.cons hs.prod]
  have hm := succ_mod_ring hs.prod
  have hprod := hs.prod
  grind

/-- A sample that completes its buffer makes the queue one longer unless it is full; no other sample changes its length
(rules R142, R215, R216). -/
theorem produceSample_queueLength {s : State} (hs : RingShape s) (ho : RingOwned s) (hn : 2 ≤ s.cfg.nBuf) :
    queueLength (produceSample s) =
      if s.fillPos + 1 = s.cfg.frames then min (queueLength s + 1) (s.cfg.nBuf - 1) else queueLength s := by
  have hsame : (produceSample s).prodCursor = s.prodCursor → queueLength (produceSample s) = queueLength s := by
    intro hp
    simp [queueLength, hp]
  split
  · next hlast =>
    obtain ⟨-, hprod⟩ := produceSample_completing_handOff hlast
    cases hr : s.readyAt (nextIndex s s.prodCursor) with
    | true =>
      rw [hr, if_pos rfl] at hprod
      rw [hsame hprod, ho.full hs hr]
      omega
    | false =>
      rw [hr, if_neg Bool.false_ne_true] at hprod
      have hlonger : queueLength (produceSample s) = queueLength s + 1 := by
        rw [queueLength_eq, produceSample_cfg, produceSample_consCursor, hprod, ho.room hs hn hr]
      have hlt : queueLength (produceSample s) < (produceSample s).cfg.nBuf :=
        queueLength_lt (by rw [produceSample_cfg]; omega)
      rw [produceSample_cfg] at hlt
      omega
  · next hin =>
    have hfill := hs.fill
    exact hsame (by rw [produceSample_within (by omega), sampleStored_prodCursor])

/-- `t` is `n` samples on from `s`, the start of a fill, with nothing consumed: a buffer was queued for each `FRAMES`
samples as long as there was room, behind those that waited (rules R216, R218). -/
structure FilledOn (s : State) (n : Nat) (t : State) : Prop where
  cfg : t.cfg = s.cfg
  cons : t.consCursor = s.consCursor
  fill : t.fillPos = n % s.cfg.frames
  length : queueLength t = min (queueLength s + n / s.cfg.frames) (s.cfg.nBuf - 1)
  queue : QueueExtends (ringQueue s) t

/-- One sample more. -/
theorem FilledOn.produceSample {s t : State} {n : Nat} (h : FilledOn s n t) : FilledOn s (n + 1) (produceSample t) := by
  have hlen := produceSample_queueLength h.queue.shape h.queue.owned h.queue.two
  have hfill := produceSample_fillPos t
  have hlt := h.queue.shape.fill
  have hdiv := Nat.succ_div (a := n) (b := s.cfg.frames)
  rw [h.cfg, h.fill] at hlen hfill hlt
  have hdvd : s.cfg.frames ∣ n + 1 ↔ n % s.cfg.frames + 1 = s.cfg.frames := by
    rw [Nat.dvd_iff_mod_eq_zero, ← Nat.mod_add_mod, succ_mod_ring hlt]
    split <;> omega
  refine ⟨(produceSample_cfg t).trans h.cfg, (produceSample_consCursor t).trans h.cons, ?_, ?_,
    h.queue.produceSample⟩
  · rw [hfill, ← Nat.mod_add_mod, succ_mod_ring hlt]
  · by_cases hlast : n % s.cfg.frames + 1 = s.cfg.frames
    · rw [hlen, h.length, if_pos hlast, hdiv, if_pos (hdvd.mpr hlast)]
      omega
    · rw [hlen, h.length, if_neg hlast, hdiv, if_neg (mt hdvd.mp hlast), Nat.add_zero]

/-- `n` samples, from the start of a fill (rules R216, R218). -/
theorem filledOn_produceSamples {s : State} (h : Inv s) (hstart : s.fillPos = 0) (n : Nat) :
    FilledOn s n (produceSamples n s) := by
  obtain ⟨htwo, -⟩ := h.valid
  have hroom := queueLength_lt (s := s) (by omega)
  induction n with
  | zero =>
    refine ⟨rfl, rfl, by rw [Nat.zero_mod]; exact hstart, ?_, htwo, h.shape, h.owned, [], (List.append_nil _).symm⟩
    rw [Nat.zero_div, produceSamples]
    omega
  | succ n ih =>
    rw [produceSamples_add n 1]
    exact ih.produceSample

/-- After `k` whole buffers the next fill starts, and as many were queued as there was room for (rules R216, R218). -/
theorem FilledOn.of_buffers {s t : State} {k : Nat} (h : FilledOn s (k * s.cfg.frames) t) (hf : 0 < s.cfg.frames) :
    t.fillPos = 0 ∧ queueLength t = min (queueLength s + k) (s.cfg.nBuf - 1) :=
  ⟨by rw [h.fill, Nat.mul_mod_left], by rw [h.length, Nat.mul_div_cancel k hf]⟩

/-- Settles O52: sample by sample the queue grows at each completed buffer until it is full; at power-on it is empty and
the consumer's cursor is 0. -/
theorem backpressureDropsTheNewest : Obligations.BackpressureDropsTheNewest := by
  refine ⟨fun s t k hinv hstart ht => ?anyFill, fun p k t hv ht => ?powerOn⟩
  case anyFill =>
    have hfilled : FilledOn s (k * s.cfg.frames) t := ht ▸ filledOn_produceSamples hinv hstart _
    obtain ⟨hfill, hlen⟩ := hfilled.of_buffers (Nat.zero_lt_of_lt hinv.shape.fill)
    refine ⟨hfilled.cons, hfill, hlen, ?_, hfilled.queue.queue⟩
    rw [hfilled.queue.shape.prodCursor_eq, hlen, hfilled.cons, hfilled.cfg]
  case powerOn =>
    obtain ⟨hn, hf, -⟩ := id hv
    have hfilled : FilledOn (State.powerOn p) (k * p.frames) t := ht ▸ filledOn_produceSamples (powerOn_inv hv) rfl _
    have hcfg : t.cfg = p := hfilled.cfg
    have hcons : t.consCursor = 0 := hfilled.cons
    obtain ⟨hfill, hlen⟩ := hfilled.of_buffers hf
    rw [powerOn_queueLength (Nat.le_of_succ_le hn), Nat.zero_add] at hlen
    replace hlen : queueLength t = min k (p.nBuf - 1) := hlen
    refine ⟨?_, hfill, hcons, fun j hj => ?_⟩
    · rw [hfilled.queue.shape.prodCursor_eq, hcons, hcfg, Nat.zero_add, hlen]
      exact Nat.mod_eq_of_lt (by omega)
    · have hready := (ringOwned_iff t).mp hfilled.queue.owned j (by rw [hcfg]; exact hj)
      rwa [hcfg, hcons, ringDistance_eq (Nat.zero_lt_of_lt hn) hj, if_pos (Nat.zero_le j), hlen] at hready

end Sys2Proof.Machine
end

section
/-! PROOFS. The two control flags and the producer: no instruction but CONSUME and the controls reads or writes them
(rules R225, R226, R263). -/

namespace Sys2Proof.Machine

/-- The state with other control flags (rules R54, R55). -/
def withFlags (m p : Bool) (s : State) : State := { s with muted := m, paused := p }

/-- A function of the state that neither reads nor writes the control flags. -/
def FlagBlind (f : State → State) : Prop := ∀ m p s, f (withFlags m p s) = withFlags m p (f s)

/-- What does not read the control flags does not write them either: the flags a state has can be put in after. -/
theorem FlagBlind.keeps {f : State → State} (h : FlagBlind f) (s : State) :
    (f s).muted = s.muted ∧ (f s).paused = s.paused := by
  have hself : f s = withFlags s.muted s.paused (f s) := h s.muted s.paused s
  rw [hself]
  exact ⟨rfl, rfl⟩

/-- One blind function after another. -/
theorem FlagBlind.comp {f g : State → State} (hf : FlagBlind f) (hg : FlagBlind g) : FlagBlind fun s => f (g s) :=
  fun m p s => (congrArg f (hg m p s)).trans (hf m p (g s))

/-- Of two blind functions, the one that a test chooses which does not read the flags either. -/
theorem FlagBlind.ite {P : State → Prop} [∀ s, Decidable (P s)] (hP : ∀ m p s, P (withFlags m p s) ↔ P s)
    {f g : State → State} (hf : FlagBlind f) (hg : FlagBlind g) : FlagBlind fun s => if P s then f s else g s := by
  intro m p s
  simp only [hP, hf m p s, hg m p s]
  exact (apply_ite (withFlags m p) _ _ _).symm

theorem FlagBlind.id : FlagBlind fun s => s := fun _ _ _ => rfl

/-- Sweep and modulation read channel 4, SWP and the modulation table, not the flags (rules R174 to R182). -/
theorem sweepModStage_flagBlind : FlagBlind sweepModStage := by
  have hcheck : FlagBlind sweepCheck := .ite (fun _ _ _ => Iff.rfl) (fun _ _ _ => rfl) .id
  have hfreq : FlagBlind expiryFrequency :=
    .ite (fun _ _ _ => Iff.rfl) (.ite (fun _ _ _ => Iff.rfl) (fun _ _ _ => rfl) .id)
      (.ite (fun _ _ _ => Iff.rfl) .id fun _ _ _ => rfl)
  have hreload : FlagBlind fun s => { s with sweepTimer := sweepInterval s.cfg s.swp } := fun _ _ _ => rfl
  have hexpiry : FlagBlind fun s =>
      expiryCounter (expiryFrequency { s with sweepTimer := sweepInterval s.cfg s.swp }) :=
    FlagBlind.comp (f := expiryCounter) (fun _ _ _ => rfl) (hfreq.comp hreload)
  have hinterval : FlagBlind intervalStep :=
    .ite (fun _ _ _ => Iff.rfl) (.ite (fun _ _ _ => Iff.rfl) hexpiry fun _ _ _ => rfl) .id
  exact .ite (fun _ _ _ => Iff.rfl) (hinterval.comp hcheck) .id

/-- Shutoff and envelope read the channels and the dividers, not the flags (rules R171, R184, R186). -/
theorem shutoffCascade_flagBlind : FlagBlind shutoffCascade := by
  have henvelope : FlagBlind envelopeCascade := .ite (fun _ _ _ => Iff.rfl) (fun _ _ _ => rfl) fun _ _ _ => rfl
  exact .ite (fun _ _ _ => Iff.rfl) (fun _ _ _ => rfl)
    (henvelope.comp (g := fun s => shutoffStage { s with shutoffDivider := shutoffReload }) fun _ _ _ => rfl)

/-- The effects tick does not read the flags, nor does the test for it (rules R142, R170). -/
theorem tickIfDue_flagBlind : FlagBlind tickIfDue := by
  have hunlock : FlagBlind fun s => { sweepModStage s with modulationLock := .none } :=
    FlagBlind.comp (f := fun s => { s with modulationLock := .none }) (fun _ _ _ => rfl) sweepModStage_flagBlind
  have htick : FlagBlind effectsTick := shutoffCascade_flagBlind.comp hunlock
  exact .ite (fun _ _ _ => Iff.rfl)
    (FlagBlind.comp (f := fun s => { s with effectDivider := tickSamples }) (fun _ _ _ => rfl) htick) .id

/-- The mix neither reads nor writes the flags: no channel reads them, and the rest of the state stays (rule R142). -/
theorem mixChannels_withFlags (m p : Bool) (s : State) :
    mixChannels (withFlags m p s) =
      ⟨(mixChannels s).accL, (mixChannels s).accR, withFlags m p (mixChannels s).st⟩ := by
  obtain ⟨hL, hR, hchan, hphase, hnoise⟩ :=
    mixChannels_congr (s := s) (t := withFlags m p s) fun _ => ⟨rfl, rfl, rfl, rfl, rfl, rfl, fun _ => rfl⟩
  have hst : (mixChannels (withFlags m p s)).st = withFlags m p (mixChannels s).st := by
    rw [mixChannels_st (withFlags m p s), hchan, hphase, hnoise, mixChannels_st s]
    rfl
  rw [← hL, ← hR, ← hst]

theorem sampleStored_flagBlind : FlagBlind sampleStored := fun m p s => by
  unfold sampleStored
  rw [tickIfDue_flagBlind, mixChannels_withFlags]
  rfl

/-- Post-processing and hand-off read the ring and the accumulator alone (rules R209, R215). -/
theorem completeBuffer_flagBlind : FlagBlind completeBuffer := by
  have hhand : FlagBlind handOff := .ite (fun _ _ _ => Iff.rfl) .id fun _ _ _ => rfl
  have hpost : FlagBlind postProcess := fun _ _ _ => rfl
  exact .ite (fun _ _ _ => Iff.rfl)
    (FlagBlind.comp (f := fun s => { s with fillPos := 0 }) (fun _ _ _ => rfl) (hhand.comp hpost)) .id

/-- A sample neither reads nor writes the flags: the producer fills the ring whatever they are (rules R142, R225). -/
theorem produceSample_flagBlind : FlagBlind produceSample := fun m p s => by
  rw [produceSample_eq, produceSample_eq]
  exact completeBuffer_flagBlind.comp sampleStored_flagBlind m p s

theorem produceSamples_flagBlind (n : Nat) : FlagBlind (produceSamples n) := by
  induction n with
  | zero => exact .id
  | succ n ih => exact ih.comp produceSample_flagBlind

theorem advance_flagBlind (toCycle : Cycle) : FlagBlind (advance toCycle) := fun m p s => by
  rw [advance_eq, advance_eq]
  exact congrArg (withClock _) (produceSamples_flagBlind _ m p s)

theorem catchUp_flagBlind (off : Offset) (now : Cycle) : FlagBlind (catchUp off now) :=
  .ite (fun _ _ _ => Iff.rfl) (advance_flagBlind now) .id

/-- The lock reads the enable bits, not the flags (rules R104, R105). -/
theorem writeTable_flagBlind (off : Offset) (v : Byte) : FlagBlind (writeTable off v) :=
  .ite (fun _ _ _ => Iff.rfl) .id fun _ _ _ => rfl

theorem setPhase_flagBlind (c : Chan) (i : Entry) : FlagBlind (State.setPhase · c i) := fun m p s => by
  unfold State.setPhase
  split <;> rfl

theorem writeInt_flagBlind (c : Chan) (v : Byte) : FlagBlind (writeInt c v) := by
  have hextra : FlagBlind (restartExtra c) :=
    .ite (fun _ _ _ => Iff.rfl) (fun _ _ _ => rfl) (.ite (fun _ _ _ => Iff.rfl) (fun _ _ _ => rfl) .id)
  have hstore : FlagBlind fun s => s.setCh c { s.ch c with int := v } := fun _ _ _ => rfl
  have hshutoff : FlagBlind fun s => s.setCh c { s.ch c with shutoffTimer := intInterval v } := fun _ _ _ => rfl
  have htimer : FlagBlind fun s => setTimer c (period s c) s := fun _ _ _ => rfl
  exact htimer.comp ((setPhase_flagBlind c 0).comp (hshutoff.comp (hextra.comp hstore)))

/-- Which channel is written decides what a register write does, and that is no matter of the flags (rules R112, R113,
R115). -/
theorem writeFql_flagBlind (c : Chan) (v : Byte) : FlagBlind (writeFql c v) :=
  .ite (fun _ _ _ => Iff.rfl) (fun _ _ _ => rfl) fun _ _ _ => rfl

theorem writeFqh_flagBlind (c : Chan) (v : Byte) : FlagBlind (writeFqh c v) :=
  .ite (fun _ _ _ => Iff.rfl) (fun _ _ _ => rfl) fun _ _ _ => rfl

theorem writeEv1_flagBlind (c : Chan) (v : Byte) : FlagBlind (writeEv1 c v) :=
  .ite (fun _ _ _ => Iff.rfl) (fun _ _ _ => rfl) fun _ _ _ => rfl

/-- An instruction that does a blind function of the state. -/
def RunsBlind (i : Instr) : Prop := ∃ f, FlagBlind f ∧ ∀ s, exec i s = .next (f s)

/-- A WRITE is its catch-up and then its effect (rule R102). -/
theorem RunsBlind.write {i : Instr} {off : Offset} {now : Cycle} {f : State → State} (hf : FlagBlind f)
    (h : ∀ s, exec i s = .next (f (catchUp off now s))) : RunsBlind i :=
  ⟨_, hf.comp (catchUp_flagBlind off now), h⟩

/-- Every instruction but CONSUME and the controls is blind to the flags (rules R225, R226, R263). -/
theorem runsBlind_of_producer {i : Instr} (hconsume : i ≠ .consume) (hpause : i ≠ .pause) (hresume : i ≠ .resume)
    (hmuted : ∀ b, i ≠ .setMuted b) : RunsBlind i := by
  cases i
  case consume => exact absurd rfl hconsume
  case pause => exact absurd rfl hpause
  case resume => exact absurd rfl hresume
  case setMuted b => exact absurd rfl (hmuted b)
  case advance toCycle => exact ⟨_, advance_flagBlind toCycle, fun _ => rfl⟩
  case reset => exact ⟨resetAll, fun _ _ _ => rfl, fun _ => rfl⟩
  case rsvdOdd | rsvdA1 => exact ⟨_, .id, fun _ => rfl⟩
  case wave0 | wave1 | wave2 | wave3 | wave4 | modtbl => exact .write (writeTable_flagBlind _ _) fun _ => rfl
  case int0 | int1 | int2 | int3 | int4 | int5 => exact .write (writeInt_flagBlind _ _) fun _ => rfl
  case fql0 | fql1 | fql2 | fql3 | fql4 | fql5 => exact .write (writeFql_flagBlind _ _) fun _ => rfl
  case fqh0 | fqh1 | fqh2 | fqh3 | fqh4 | fqh5 => exact .write (writeFqh_flagBlind _ _) fun _ => rfl
  case ev10 | ev11 | ev12 | ev13 | ev14 | ev15 => exact .write (writeEv1_flagBlind _ _) fun _ => rfl
  case lrv0 | lrv1 | lrv2 | lrv3 | lrv4 | lrv5 =>
    exact .write (f := writeLrv _ _) (fun _ _ _ => rfl) fun _ => rfl
  case ev00 | ev01 | ev02 | ev03 | ev04 | ev05 =>
    exact .write (f := writeEv0 _ _) (fun _ _ _ => rfl) fun _ => rfl
  case ram0 | ram1 | ram2 | ram3 | ram4 =>
    exact .write (f := (State.setRam · _ _)) (fun _ _ _ => rfl) fun _ => rfl
  case swp now v => exact .write (f := fun s => { s with swp := v }) (fun _ _ _ => rfl) fun _ => rfl
  case sstop now v =>
    exact .write (f := fun s => if sstopStop v then stopAll s else s)
      (.ite (fun _ _ _ => Iff.rfl) (fun _ _ _ => rfl) .id) fun _ => rfl
  all_goals exact .write .id fun _ => rfl

/-- Settles O54: each of these instructions does a function of the state that neither reads nor writes the flags. -/
theorem muteAndPauseDoNotDisturbTheProducer : Obligations.MuteAndPauseDoNotDisturbTheProducer := by
  intro i s t m p hconsume hpause hresume hmuted h
  obtain ⟨f, hf, hexec⟩ := runsBlind_of_producer hconsume hpause hresume hmuted
  rw [hexec] at h
  cases h
  obtain ⟨hm, hp⟩ := hf.keeps s
  exact ⟨hm, hp, (hexec _).trans (congrArg Host.Outcome.next (hf m p s))⟩

end Sys2Proof.Machine
end

section
/-! PROOFS. Every instruction answers a next state, and none touches the parameters or the operations still to perform
(rule R240; assumptions 1 and 3). -/

namespace Sys2Proof.Machine

@[simp] theorem restartExtra_pending (c : Chan) (s : State) : (restartExtra c s).pending = s.pending := by
  rcases restartExtra_cases c s with ⟨-, e⟩ | ⟨-, e⟩ | ⟨-, -, e⟩ <;> simp [e, restartSweep]

@[simp] theorem writeInt_pending (c : Chan) (v : Byte) (s : State) : (writeInt c v s).pending = s.pending := by
  simp [writeInt]

/-- A WRITE's store leaves the operations still to perform (rule R124; assumption 1). -/
theorem WriteEffect.pending_eq {u t : State} (h : WriteEffect u t) : t.pending = u.pending := by
  cases h with
  | none h => rw [h]
  | table k i v h =>
    rw [h]
    rcases writeTable_cases (tableOffset k.val i) v u with ⟨-, e⟩ | ⟨-, e⟩ <;> rw [e]
  | int c v h => rw [h, writeInt_pending]
  | lrv c v h => rw [h]; rfl
  | fql c v h => rw [h]; unfold writeFql; dsimp only; split <;> rfl
  | fqh c v h => rw [h]; unfold writeFqh; dsimp only; split <;> rfl
  | ev0 c v h => rw [h]; rfl
  | ev1 c v h => rw [h]; unfold writeEv1; dsimp only; split <;> rfl
  | ram c v h => rw [h]; rfl
  | swp v h => rw [h]
  | stop h => rw [h]; rfl

/-- No instruction changes the operations still to perform: a step alone takes the first of them (assumption 1). -/
theorem InstrEffect.pending_eq {now : Cycle} {s t : State} (h : InstrEffect now s t) : t.pending = s.pending := by
  cases h with
  | idle h => rw [h]
  | write off w => exact w.pending_eq.trans (catchUp_pending s off now)
  | advance h => rw [h]; exact advance_pending s now
  | reset h => rw [h]; rfl
  | muted b h => rw [h]
  | paused b h => rw [h]
  | consume h => rcases consume_cases s with ⟨-, e⟩ | ⟨-, -, e⟩ | ⟨-, -, e⟩ <;> rw [h, e]

/-- No instruction faults or is refused (rule R240). -/
theorem exec_completes (i : Instr) (s : State) : ∃ t, exec i s = .next t := by
  cases i <;> exact ⟨_, rfl⟩

/-- Settles O6: every arm of `exec` answers a next state, and what an instruction can do reaches neither the parameters
nor the operations still to perform. -/
theorem everyInstructionCompletes : Obligations.EveryInstructionCompletes := by
  intro i s
  obtain ⟨t, h⟩ := exec_completes i s
  have heffect := exec_cases h
  exact ⟨t, h, heffect.cfg_eq, heffect.pending_eq⟩

end Sys2Proof.Machine
end
